-- ==== Sys2Proof/Word.lean ====
section
/-! DEFINITION. Word types and the two plain operations on fixed-size tables. -/

namespace Sys2Proof

/-- One byte of host memory, of a record or of a frame. -/
abbrev Byte := BitVec 8

/-- Bytes in ascending address (or sending) order. -/
abbrev Bytes := List Byte

/-- A node id, 0..255 (00_scope 2.2). -/
abbrev Node := BitVec 8

/-- A sequence number, 16 bits, wrapping (00_scope 2.2). -/
abbrev Seq := BitVec 16

/-- A count of ticks (R192: the tick counter is 64 bits wide). -/
abbrev Tick := BitVec 64

/-- The entry of a fixed-size table at an index. -/
def tabGet {α : Type} {n : Nat} (v : Vector α n) (i : Fin n) : α := v[i.val]'i.isLt

/-- The table with one entry replaced. -/
def tabSet {α : Type} {n : Nat} (v : Vector α n) (i : Fin n) (x : α) : Vector α n :=
  v.set i.val x i.isLt

@[simp] theorem tabGet_tabSet_same {α : Type} {n : Nat} (v : Vector α n) (i : Fin n) (x : α) :
    tabGet (tabSet v i x) i = x := by
  simp [tabGet, tabSet]

theorem tabGet_tabSet_other {α : Type} {n : Nat} (v : Vector α n) {i j : Fin n} (x : α)
    (h : i ≠ j) : tabGet (tabSet v i x) j = tabGet v j := by
  have h' : i.val ≠ j.val := fun e => h (Fin.ext e)
  simp [tabGet, tabSet, Vector.getElem_set_ne, h']

@[simp] theorem tabGet_replicate {α : Type} {n : Nat} (x : α) (i : Fin n) :
    tabGet (Vector.replicate n x) i = x := by
  simp [tabGet]

end Sys2Proof
end

