-- ==== Sys2Proof/Syntax.lean ====
section
/-! DEFINITION. The commands: one constructor per row of spec/opcode_table.json.

A row that stands for a read coming back from the host carries the read's `tag` (the number the part gave
that read when it issued it: log entry 4) and the bytes that came back. A row that takes a frame names the
lane whose oldest waiting frame is taken (R146). -/

namespace Sys2Proof

/-- The two serial lanes (00_scope 1.2). -/
inductive Lane where
  | a
  | b
  deriving DecidableEq, Repr

/-- The lane that is not this one (R152: "the other lane"). -/
def Lane.other : Lane → Lane
  | .a => .b
  | .b => .a

/-- The commands of the block, in the table's order. -/
inductive Instr where
  /-- POWER_ON (R190). -/
  | powerOn
  /-- START: PART_CTL written with 1 (R182). -/
  | start
  /-- STOP: PART_CTL written with 2 (R182). -/
  | stop
  /-- RESET: PART_CTL written with 3 (R182, R191). -/
  | reset
  /-- PART_CTL written with another value (R182). -/
  | partCtlOtherValue (value : BitVec 32)
  /-- A 32-bit write to RQ_TAIL (R157). -/
  | rqTailWrite (value : BitVec 32)
  /-- A 32-bit write to SR_TAIL (R157). -/
  | srTailWrite (value : BitVec 32)
  /-- A 32-bit write to CQ_HEAD (R158). -/
  | cqHeadWrite (value : BitVec 32)
  /-- A 32-bit write to ER_HEAD (R158). -/
  | erHeadWrite (value : BitVec 32)
  /-- A 32-bit write to INT_CAUSE (R194). -/
  | intCauseWrite (value : BitVec 32)
  /-- A 32-bit write to INT_MASK (R194). -/
  | intMaskWrite (value : BitVec 32)
  /-- Any other write of `size` bytes into the register window (R177). -/
  | registerWrite (offset : BitVec 12) (size : Nat) (value : BitVec 32)
  /-- The host sets or clears the PCI Express MSI enable (R194). -/
  | msiEnableChange (enable : Bool)
  /-- The Setup Block read `tag` comes back with its 128 bytes, or with an error (`none`) (R183). -/
  | setupBlockReadDone (tag : Nat) (reply : Option Bytes)
  /-- The end of one tick period (R192). -/
  | tick
  /-- The deadline of the Match Store entry with this number is reached (R17). -/
  | receiveDeadlineExpiry (entry : Nat)
  /-- The gap timer of this node's peer record is reached (R70). -/
  | gapTimerExpiry (node : Node)
  /-- A reassembly context reaches its age limit (R89). -/
  | contextExpiry (context : Fin 64)
  /-- The response timer of a Send Table entry is reached (R131). -/
  | responseTimerExpiry (index : Fin 32)
  /-- A lane's hold-off timer is reached (R139). -/
  | holdOffExpiry (lane : Lane)
  /-- A lane's training timer is reached (R139). -/
  | trainingTimerExpiry (lane : Lane)
  /-- A lane's receiver reports loss of signal (R139). -/
  | lossOfSignal (lane : Lane)
  /-- The Ring Unit starts a request take (R162). -/
  | requestTakeStart
  /-- The Request Ring read `tag` is answered with an error (R162). -/
  | requestReadError (tag : Nat)
  /-- The Request Ring read `tag` returns a record of kind 1 (R166). -/
  | nop (tag : Nat) (record : Bytes)
  /-- The Request Ring read `tag` returns a record of kind 2 (R12). -/
  | postRecv (tag : Nat) (record : Bytes)
  /-- The Request Ring read `tag` returns a record of kind 3 (R15). -/
  | cancelRecv (tag : Nat) (record : Bytes)
  /-- The Request Ring read `tag` returns a record of kind 4 (R16). -/
  | probe (tag : Nat) (record : Bytes)
  /-- The Request Ring read `tag` returns a record of kind 5 (R115). -/
  | send (tag : Nat) (record : Bytes)
  /-- The Request Ring read `tag` returns a record of kind 6 (R132). -/
  | cancelSend (tag : Nat) (record : Bytes)
  /-- The Request Ring read `tag` returns a record of kind 7 (R8). -/
  | domainOpen (tag : Nat) (record : Bytes)
  /-- The Request Ring read `tag` returns a record of kind 8 (R9). -/
  | domainClose (tag : Nat) (record : Bytes)
  /-- The Request Ring read `tag` returns a record of kind 9 (R198). -/
  | stats (tag : Nat) (record : Bytes)
  /-- The Counter Bank reads the next counter of the running STATS claim (R199). -/
  | statsCounterRead
  /-- The Spill Cache starts a fetch (R98). -/
  | spillFetchStart
  /-- The Spill Ring read `tag` returns its 16-byte slot (R98). -/
  | spillFetchDone (tag : Nat) (slot : Bytes)
  /-- The Spill Ring read `tag` is answered with an error (R100). -/
  | spillFetchReadError (tag : Nat)
  /-- A frame of these bytes, CRC included, arrives at a lane's receiver (R144). -/
  | frameArrival (lane : Lane) (bytes : Bytes)
  /-- The lane takes its oldest frame, of kind DATA (R54). -/
  | data (lane : Lane)
  /-- The lane takes its oldest frame, of kind ANNOUNCE (R62). -/
  | announce (lane : Lane)
  /-- The lane takes its oldest frame, of kind PULL (R127). -/
  | pull (lane : Lane)
  /-- The lane takes its oldest frame, of kind PDATA (R87). -/
  | pdata (lane : Lane)
  /-- The lane takes its oldest frame, of kind ACK (R128). -/
  | ack (lane : Lane)
  /-- The lane takes its oldest frame, of kind REFUSE (R129). -/
  | refuse (lane : Lane)
  /-- The lane takes its oldest frame, of kind RETRACT (R27). -/
  | retract (lane : Lane)
  /-- The lane takes its oldest frame, of kind ABORT with TO_RECEIVER clear (R129). -/
  | abortToSender (lane : Lane)
  /-- The lane takes its oldest frame, of kind ABORT with TO_RECEIVER set (R93). -/
  | abortToReceiver (lane : Lane)
  /-- The lane takes its oldest frame, of kind TRAIN_ACK (R142). -/
  | trainAck (lane : Lane)
  /-- The lane takes its oldest frame, of kind CREDIT (R148). -/
  | credit (lane : Lane)
  /-- The lane takes its oldest frame, of kind TRAIN (R142). -/
  | train (lane : Lane)
  /-- The last byte of the frame being sent has left the lane (R149). -/
  | frameSent (lane : Lane)
  /-- The send buffer read `tag` returns its bytes (R122). -/
  | sendReadReturn (tag : Nat) (bytes : Bytes)
  /-- The send buffer read `tag` is answered with an error (R125). -/
  | sendReadError (tag : Nat)
  /-- A drain starts, issuing `reads` chunk reads (R109, R110; log entry 8). -/
  | drainStart (reads : Nat)
  /-- The chunk read `tag` returns; the Data Mover then issues `reads` further ones (R110; log entry 8). -/
  | drainChunkReadReturn (tag : Nat) (bytes : Bytes) (reads : Nat)
  /-- The chunk read `tag` is answered with an error (R112). -/
  | drainReadError (tag : Nat)
  /-- A pull service claim is taken (R76). -/
  | pullService
  /-- A Send Table allocation claim is taken (R119). -/
  | allocationClaim
  /-- The lane takes its oldest frame, whose kind code names no kind (R40). -/
  | noKindFrame (lane : Lane)
  /-- The Request Ring read `tag` returns a record of kind 0 or 10..255 (R165). -/
  | unknownKindRequest (tag : Nat) (record : Bytes)
  deriving DecidableEq, Repr

end Sys2Proof
end

