-- ==== Sys2Proof/Machine/State.lean ====
section
/-! DEFINITION. The state of the part as plain data, grouped by the block that owns it (00_scope 1.3), the
reasons a command can stop, and the state right after power-on. -/

namespace Sys2Proof.Machine

/-- No command of this part stops: every row of the table has an effect, and an event that cannot occur changes
nothing (log entry 2). So there is no fault to name. -/
inductive Fault where
  deriving DecidableEq, Repr

/-- Why a command has no meaning. -/
inductive Refusal where
  /-- Raised by exec for a row without a meaning yet; no row of this model raises it. Safe: it claims nothing. -/
  | notModelled (mnemonic : String)
  deriving DecidableEq, Repr

/-! ### Host Port (Chapter 9) -/

/-- The six part states (R178, R182). -/
inductive PartState where
  | idle
  | loading
  | online
  | stopping
  | stopped
  | failed
  deriving DecidableEq, Repr

/-- The last command result field of PART_STATE (R178). -/
inductive CommandResult where
  | accepted
  | ignored
  deriving DecidableEq, Repr

/-- The failure cause field of PART_STATE (R178). -/
inductive FailureCause where
  | noFailure
  | requestRing
  | spillRing
  deriving DecidableEq, Repr

/-- The values of the Setup Block that the part holds from the completion of loading (R179, R181). -/
structure Setup where
  nodeId : Node
  epoch : BitVec 8
  laneMask : BitVec 8
  tickPeriod : Nat
  requestBase : BitVec 64
  spillBase : BitVec 64
  completionBase : BitVec 64
  eventBase : BitVec 64
  requestSize : Nat
  spillRingSize : Nat
  completionSize : Nat
  eventSize : Nat
  shadow : BitVec 64
  spillSize : Nat
  eagerLimit : Nat
  unexpectedLimit : Nat
  ageLimit : Nat
  gapLimit : Nat
  responseLimit : Nat
  deriving DecidableEq, Repr

/-- The Setup Block read of a loading: its number and the address captured at START (R183). -/
structure SetupRead where
  tag : Nat
  address : BitVec 64
  deriving DecidableEq, Repr

/-- The registers and values of the Host Port (R177, R178, R181, R192 to R194). -/
structure HostPort where
  partState : PartState
  setupError : Nat
  lastResult : CommandResult
  failureCause : FailureCause
  setupAddrLo : BitVec 32
  setupAddrHi : BitVec 32
  setupRead : Option SetupRead
  setup : Option Setup
  intCause : BitVec 4
  intMask : BitVec 4
  msiEnable : Bool
  tick : Tick
  deriving DecidableEq, Repr

/-! ### Records given to the Ring Unit (Chapter 8) -/

/-- The statuses of a completion (R168). -/
inductive Status where
  | ok
  | truncated
  | cancelled
  | tooLate
  | notFound
  | badRequest
  | noEntry
  | noResource
  | domainNotOpen
  | domainBusy
  | alreadyOpen
  | timeout
  | dataLost
  | refused
  | peerRestart
  | remoteAbort
  | aborted
  | hostReadError
  deriving DecidableEq, Repr

/-- A completion as its giver hands it over: the fields of R167 and the NOTIFY flag, which is not written. -/
structure Completion where
  kind : BitVec 8
  status : Status := .ok
  detail : BitVec 8 := 0
  unconfirmed : Bool := false
  rendezvous : Bool := false
  domain : BitVec 8 := 0
  peer : BitVec 16 := 0
  cookie : BitVec 64 := 0
  tag : BitVec 32 := 0
  delivered : Nat := 0
  length : Nat := 0
  token : Option (BitVec 32) := none
  notify : Bool := false
  deriving DecidableEq, Repr

/-- The seven event kinds (R174, 10.3). -/
inductive EventKind where
  | laneState
  | peerRestart
  | sequenceGap
  | protocolError
  | resourceExhausted
  | ringIndexError
  | partState
  deriving DecidableEq, Repr

/-- An event as its giver hands it over (R174). -/
structure Event where
  kind : EventKind
  node : BitVec 16 := 0
  seq : Seq := 0
  paramA : BitVec 32 := 0
  paramB : BitVec 32 := 0
  deriving DecidableEq, Repr

/-- The request take (R162): none, its read in flight, or its claim with the owner. -/
inductive Take where
  | noTake
  | reading (tag : Nat)
  | owned
  deriving DecidableEq, Repr

/-- The Ring Unit: the eight counts, the Completion Holding Queue, the event lost count and the request take
(R156, R162, R169, R175). -/
structure RingUnit where
  rqTail : BitVec 16
  srTail : BitVec 16
  cqHead : BitVec 16
  erHead : BitVec 16
  requestHead : BitVec 16
  spillHead : BitVec 16
  completionTail : BitVec 16
  eventTail : BitVec 16
  chq : List Completion
  lost : BitVec 16
  take : Take
  deriving DecidableEq, Repr

/-! ### Spill Cache (Chapter 5) -/

/-- A spill buffer fetched from the Spill Ring (R97). -/
structure SpillEntry where
  address : BitVec 64
  token : BitVec 32
  deriving DecidableEq, Repr

/-- The one fetch that may be in flight (R97 to R99): its read, or its bad entry on the way back to the host. -/
inductive Fetch where
  | noFetch
  | reading (tag : Nat)
  | returningBad
  deriving DecidableEq, Repr

/-- The Spill Cache (R97). -/
structure SpillCache where
  entries : List SpillEntry
  fetch : Fetch
  loan : Option SpillEntry
  deriving DecidableEq, Repr

/-! ### Match Unit (Chapter 1) -/

/-- One segment of a scatter/gather list. -/
structure Segment where
  address : BitVec 64
  length : Nat
  deriving DecidableEq, Repr

/-- How the data of a message travels (R31). -/
inductive Mode where
  | eager
  | rendezvous
  deriving DecidableEq, Repr

/-- The receive part of an entry (1.1.1); `order` is the posting order. -/
structure Receive where
  cookie : BitVec 64
  selector : BitVec 16
  tag : BitVec 32
  mask : BitVec 32
  segments : List Segment
  total : Nat
  notify : Bool
  order : Nat
  deriving DecidableEq, Repr

/-- The spill fill state (1.1.1). -/
inductive FillState where
  | filling
  | complete
  deriving DecidableEq, Repr

/-- The spill buffer an EAGER message is stored in (1.1.1). -/
structure StoredSpill where
  token : BitVec 32
  address : BitVec 64
  fill : FillState
  deriving DecidableEq, Repr

/-- The message part of an entry (1.1.1). `handle` is meaningful for RENDEZVOUS and 0 for EAGER. -/
structure Message where
  source : Node
  epoch : BitVec 8
  seq : Seq
  tag : BitVec 32
  length : Nat
  mode : Mode
  handle : BitVec 16
  spill : Option StoredSpill
  context : Option (Fin 64)
  lane : Lane
  deriving DecidableEq, Repr

/-- The wait state of a BOUND entry (1.1.1, R14, R24). -/
inductive WaitState where
  | awaitData
  | awaitFill
  | awaitDrain
  | draining
  | awaitContext
  | pulling
  deriving DecidableEq, Repr

/-- The four kinds of a used entry, each with the parts R2 gives it. -/
inductive EntryBody where
  | posted (r : Receive) (deadline : Option Tick)
  | held (m : Message)
  | ready (m : Message)
  | bound (r : Receive) (m : Message) (wait : WaitState)
  deriving DecidableEq, Repr

/-- A used Match Store entry (R1). `id` is the model's own number for it (log entry 18). -/
structure Entry where
  id : Nat
  domain : Fin 64
  body : EntryBody
  deriving DecidableEq, Repr

/-- The state of a domain (1.4). -/
inductive DomainState where
  | closed
  | opened
  | closing
  deriving DecidableEq, Repr

/-- The request to complete when a close ends (1.4). -/
structure PendingClose where
  cookie : BitVec 64
  notify : Bool
  deriving DecidableEq, Repr

/-- A record of the domain table (1.4). -/
structure DomainRecord where
  state : DomainState
  close : Option PendingClose
  deriving DecidableEq, Repr

/-- The Match Unit: the Match Store with its counts, the domain table, the lists and the exhaustion latches
(R1, R3 to R5, R8, R106). The lists hold entry numbers. -/
structure MatchUnit where
  store : List Entry
  free : Nat
  unexpected : Nat
  domains : Vector DomainRecord 64
  prl : Vector (List Nat) 64
  uml : Vector (List Nat) 64
  pullQueue : List Nat
  poolLatch : Bool
  spillLatch : Bool
  contextLatch : Bool
  nextEntry : Nat
  nextPosting : Nat
  deriving DecidableEq, Repr

/-! ### Peer Table (Chapter 3) -/

/-- A reference to a HELD entry, kept under its sequence number (R68). -/
structure HeldRef where
  seq : Seq
  entry : Nat
  deriving DecidableEq, Repr

/-- The receive half of a peer record (R49). Bit k - 1 of `ahead` is bit k of the ahead bitmap; a record is KNOWN
or UNKNOWN. -/
structure PeerRecord where
  known : Bool
  epoch : Option (BitVec 8)
  nextSeq : Seq
  ahead : BitVec 7
  held : List HeldRef
  gapTimer : Option Tick
  deriving DecidableEq, Repr

/-! ### Reassembly Unit (Chapter 4) -/

/-- Where a context's data is written (R72). -/
inductive Target where
  | segments (list : List Segment)
  | spill (address : BitVec 64)
  deriving DecidableEq, Repr

/-- The fields a context in use holds in either state (R72). -/
structure Gather where
  source : Node
  epoch : BitVec 8
  seq : Seq
  handle : BitVec 16
  length : Nat
  target : Target
  writeLimit : Nat
  entry : Nat
  truncated : Bool
  lastActivity : Tick
  answerLane : Lane
  deriving DecidableEq, Repr

/-- The state of a context with the fields of that state (R72); FILLING is EAGER and PULLING is RENDEZVOUS. -/
inductive ContextBody where
  | free
  | filling (g : Gather) (tag : BitVec 32) (domain : Fin 64) (bitmap : BitVec 64)
  | pulling (g : Gather) (pullLength : Nat) (nextOffset : Nat)
  deriving DecidableEq, Repr

/-- A reassembly context (R72). -/
structure Context where
  generation : BitVec 8
  body : ContextBody
  deriving DecidableEq, Repr

/-- The Context Table and its age list, oldest first (R72, R89). -/
structure ReassemblyUnit where
  table : Vector Context 64
  age : List (Fin 64)
  deriving DecidableEq, Repr

/-! ### Data Mover (Chapter 5) -/

/-- A chunk read that has been issued and has not come back (R110). -/
structure ChunkRead where
  tag : Nat
  chunk : Nat
  deriving DecidableEq, Repr

/-- The drain a BUSY slot holds (R109); `failed` once a read of it was answered with an error (R112). -/
structure Drain where
  entry : Nat
  address : BitVec 64
  segments : List Segment
  length : Nat
  nextChunk : Nat
  outstanding : List ChunkRead
  failed : Bool
  deriving DecidableEq, Repr

/-- The Drain Queue and the four drain slots (R108, R109); `none` is a FREE slot. -/
structure DataMover where
  queue : List Nat
  slots : Vector (Option Drain) 4
  deriving DecidableEq, Repr

/-! ### Send Unit (Chapter 6) -/

/-- A Send Backlog entry (R115); `order` is the order in which SENDs were taken (R132). -/
structure Backlogged where
  cookie : BitVec 64
  dest : Node
  domain : Fin 64
  tag : BitVec 32
  segments : List Segment
  length : Nat
  notify : Bool
  mode : Mode
  order : Nat
  deriving DecidableEq, Repr

/-- The states of a Send Table entry (R120). -/
inductive SendState where
  | free
  | eagerSending
  | waitPull
  | streaming
  | waitAck
  | retracting
  | retiring
  deriving DecidableEq, Repr

/-- One read of a piece, with its bytes once they have come back (R122). -/
structure ReadPart where
  tag : Nat
  length : Nat
  data : Option Bytes
  deriving DecidableEq, Repr

/-- The piece an entry has in preparation (R122). -/
inductive Piece where
  | noPiece
  | reading (offset : Nat) (parts : List ReadPart)
  | ready (offset : Nat) (bytes : Bytes)
  deriving DecidableEq, Repr

/-- The CANCEL_SEND that waits on a RETRACTING entry (R133). -/
structure PendingCancel where
  cookie : BitVec 64
  notify : Bool
  deriving DecidableEq, Repr

/-- A Send Table entry (R120). -/
structure SendEntry where
  state : SendState
  generation : BitVec 11
  cookie : BitVec 64
  domain : Fin 64
  tag : BitVec 32
  notify : Bool
  dest : Node
  seq : Seq
  mode : Mode
  length : Nat
  segments : List Segment
  nextOffset : Nat
  piece : Piece
  pullLength : Nat
  contextRef : BitVec 16
  announceLane : Lane
  pinnedLane : Lane
  timer : Option Tick
  cancel : Option PendingCancel
  order : Nat
  deriving DecidableEq, Repr

/-- The send half of a peer record (R117). -/
structure SendHalf where
  nextSendSeq : Seq
  sendBase : Seq
  inFlight : Nat
  deriving DecidableEq, Repr

/-- The Send Unit (R115, R117, R120). -/
structure SendUnit where
  backlog : List Backlogged
  table : Vector SendEntry 32
  halves : Vector SendHalf 256
  nextOrder : Nat
  deriving DecidableEq, Repr

/-! ### Frames and lanes (Chapters 2 and 7) -/

/-- The eleven frame kinds (R34). -/
inductive FrameKind where
  | data
  | announce
  | pull
  | pdata
  | ack
  | refuse
  | retract
  | abort
  | train
  | trainAck
  | credit
  deriving DecidableEq, Repr

/-- A frame: the header fields of R35 and the payload. Its CRC is made when it is sent (R36). -/
structure Frame where
  kind : FrameKind
  flags : BitVec 4 := 0
  dest : Node := 0
  source : Node := 0
  epoch : BitVec 8 := 0
  seq : Seq := 0
  windowBase : Seq := 0
  tag : BitVec 32 := 0
  domain : BitVec 8 := 0
  reason : BitVec 8 := 0
  payloadLength : BitVec 16 := 0
  total : BitVec 32 := 0
  offset : BitVec 32 := 0
  handle : BitVec 16 := 0
  contextRef : BitVec 16 := 0
  payload : Bytes := []
  deriving DecidableEq, Repr

/-- The lane states (R139). -/
inductive LaneState where
  | disabled
  | down
  | training
  | up
  | fault
  deriving DecidableEq, Repr

/-- Where a frame being sent came from (R154 treats the cases apart). -/
inductive TxSource where
  | train
  | credit
  | control
  | data
  deriving DecidableEq, Repr

/-- The frame now leaving a lane (R138). -/
structure TxFrame where
  source : TxSource
  frame : Frame
  deriving DecidableEq, Repr

/-- The record of one lane (R138). `ingress` holds the frames in the buffers in use, oldest first, and `busy` says
that the oldest of them is being handled (R146). -/
structure LaneRecord where
  state : LaneState
  creditLimit : Nat
  credits : Nat
  owed : Nat
  trainSent : Bool
  trainingTimer : Option Tick
  holdOffTimer : Option Tick
  ingress : List Bytes
  busy : Bool
  queue : List Frame
  roundRobin : Fin 32
  transmitter : Option TxFrame
  deriving DecidableEq, Repr

/-! ### Counter Bank (Chapter 10) -/

/-- The running STATS claim and the values it has read so far (R198). -/
structure StatsClaim where
  cookie : BitVec 64
  notify : Bool
  clear : Bool
  address : BitVec 64
  values : List (BitVec 32)
  deriving DecidableEq, Repr

/-- The Counter Bank (R195, R198). -/
structure CounterBank where
  values : Vector (BitVec 32) 16
  stats : Option StatsClaim
  deriving DecidableEq, Repr

/-! ### Claims in progress

A claim that waits (R7, R50, R73, R114, R151, R172) is kept as the list of acts it has still to do; the units
whose claim is not finished are the locks (log entries 5 and 6). -/

/-- A unit that takes one claim at a time: the Match Unit (R7), the Send Unit (R114), a peer record (R50), a
reassembly context (R73). -/
inductive Lock where
  | matchUnit
  | sendUnit
  | record (node : Node)
  | context (id : Fin 64)
  deriving DecidableEq, Repr

/-- A request record that has passed validation, its fields taken apart (R163). -/
structure Request where
  notify : Bool
  hasDeadline : Bool
  forceRdv : Bool
  clear : Bool
  domain : Fin 64
  peer : BitVec 16
  cookie : BitVec 64
  tag : BitVec 32
  mask : BitVec 32
  target : BitVec 64
  deadline : BitVec 32
  segments : List Segment
  total : Nat
  deriving DecidableEq, Repr

/-- The Match Unit's answer to an opening (R62). -/
inductive OpenAnswer where
  | accepted (context : Option (Fin 64))
  | refused (reason : BitVec 8)
  deriving DecidableEq, Repr

/-- How a context ends (4.9). -/
inductive ContextEnd where
  | complete
  | expired
  | gap
  | aborted (reason : BitVec 8)
  deriving DecidableEq, Repr

/-- One act of a claim. Machine/Claims.lean says what each does and when it can be done. -/
inductive Act where
  | give (c : Completion)
  | place (nominal : Lane) (f : Frame)
  | placeOn (lane : Lane) (f : Frame)
  | dropped
  | unlock (locks : List Lock)
  | endTake
  | freeIngress (lane : Lane)
  | postRecv (r : Request)
  | cancelRecv (r : Request)
  | probe (r : Request)
  | domainOpen (r : Request)
  | domainClose (r : Request)
  | send (r : Request)
  | cancelSend (r : Request)
  | retracting (index : Fin 32) (cancel : PendingCancel)
  | endSend (index : Fin 32) (status : Status) (detail : BitVec 8)
  | epoch (lane : Lane) (f : Frame)
  | restartMatch (node : Node)
  | restartSend (node : Node)
  | dispatch (lane : Lane) (f : Frame)
  | walk (lane : Lane) (f : Frame) (opened : Bool) (first : Seq) (skipped : Nat)
  | chain (node : Node) (opened : Bool)
  | gapEvent (node : Node) (first : Seq) (skipped : Nat) (cause : Nat)
  | lookup (lane : Lane) (f : Frame) (advanced : Bool)
  | opening (lane : Lane) (f : Frame) (ahead : Bool) (advanced : Bool)
  | spillWait (lane : Lane) (f : Frame) (ahead : Bool) (advanced : Bool)
  | answered (lane : Lane) (f : Frame) (ahead : Bool) (advanced : Bool) (answer : OpenAnswer)
  | endRecord (node : Node) (advanced : Bool)
  | fragment (context : Fin 64) (lane : Lane) (f : Frame)
  | report (context : Fin 64) (how : ContextEnd)
  | freeContext (context : Fin 64)
  | pdata (lane : Lane) (f : Frame)
  | abortReceive (lane : Lane) (f : Frame)
  | retract (lane : Lane) (f : Frame)
  | answer (lane : Lane) (f : Frame)
  | deadline (entry : Nat) (expiry : Tick)
  | gapExpiry (node : Node) (expiry : Tick)
  | contextExpiry (context : Fin 64) (generation : BitVec 8) (lastActivity : Tick)
  | responseExpiry (index : Fin 32) (generation : BitVec 11) (expiry : Tick)
  | pullService
  | drainStart (reads : Nat)
  | drainEnd (slot : Fin 4)
  | freeSlot (slot : Fin 4)
  | allocate
  | readReturn (tag : Nat) (bytes : Bytes)
  | readError (tag : Nat)
  | endFetch
  deriving DecidableEq, Repr

/-- The claims in progress that wait, in the order in which they began to wait; the units held; the pull service
and allocation claims made and not yet taken (R76, R119); and the model's own numbering of host reads and of free
choices (log entries 4 to 9). -/
structure Claims where
  waiting : List (List Act)
  locks : List Lock
  pullClaims : Nat
  allocationClaims : Nat
  nextTag : Nat
  choices : Nat
  deriving DecidableEq, Repr

/-- What leaves the part: bus-master writes and reads, message signalled interrupts, and frames (log entry 3). -/
inductive Output where
  | write (address : BitVec 64) (bytes : Bytes)
  | read (tag : Nat) (address : BitVec 64) (length : Nat)
  | interrupt
  | frame (lane : Lane) (bytes : Bytes)
  | cut (lane : Lane)
  deriving DecidableEq, Repr

/-- The whole machine. `outbox` is what has left the part so far, oldest first; `pending` is the queue of commands
that are waiting. -/
structure State where
  host : HostPort
  ring : RingUnit
  spill : SpillCache
  matching : MatchUnit
  peers : Vector PeerRecord 256
  contexts : ReassemblyUnit
  mover : DataMover
  sending : SendUnit
  laneA : LaneRecord
  laneB : LaneRecord
  counters : CounterBank
  claims : Claims
  outbox : List Output
  pending : List Instr
  deriving DecidableEq, Repr

/-! ### Reset values -/

/-- R190; the MSI enable is log entry 10. -/
def HostPort.reset : HostPort where
  partState := .idle
  setupError := 0
  lastResult := .accepted
  failureCause := .noFailure
  setupAddrLo := 0
  setupAddrHi := 0
  setupRead := none
  setup := none
  intCause := 0
  intMask := 0
  msiEnable := false
  tick := 0

/-- R156, R169, R175. -/
def RingUnit.reset : RingUnit where
  rqTail := 0
  srTail := 0
  cqHead := 0
  erHead := 0
  requestHead := 0
  spillHead := 0
  completionTail := 0
  eventTail := 0
  chq := []
  lost := 0
  take := .noTake

/-- R97. -/
def SpillCache.reset : SpillCache where
  entries := []
  fetch := .noFetch
  loan := none

/-- R1, R3 to R5, R8, R29, R106. -/
def MatchUnit.reset : MatchUnit where
  store := []
  free := 1024
  unexpected := 0
  domains := Vector.replicate 64 { state := .closed, close := none }
  prl := Vector.replicate 64 []
  uml := Vector.replicate 64 []
  pullQueue := []
  poolLatch := false
  spillLatch := false
  contextLatch := false
  nextEntry := 0
  nextPosting := 0

/-- R49. -/
def PeerRecord.reset : PeerRecord where
  known := false
  epoch := none
  nextSeq := 0
  ahead := 0
  held := []
  gapTimer := none

/-- R72. -/
def ReassemblyUnit.reset : ReassemblyUnit where
  table := Vector.replicate 64 { generation := 0, body := .free }
  age := []

/-- R108, R109. -/
def DataMover.reset : DataMover where
  queue := []
  slots := Vector.replicate 4 none

/-- R120: FREE, generation 0, timer disarmed; the other fields hold nothing of meaning (log entry 11). -/
def SendEntry.reset : SendEntry where
  state := .free
  generation := 0
  cookie := 0
  domain := 0
  tag := 0
  notify := false
  dest := 0
  seq := 0
  mode := .eager
  length := 0
  segments := []
  nextOffset := 0
  piece := .noPiece
  pullLength := 0
  contextRef := 0
  announceLane := .a
  pinnedLane := .a
  timer := none
  cancel := none
  order := 0

/-- R115, R117, R120. -/
def SendUnit.reset : SendUnit where
  backlog := []
  table := Vector.replicate 32 SendEntry.reset
  halves := Vector.replicate 256 { nextSendSeq := 0, sendBase := 0, inFlight := 0 }
  nextOrder := 0

/-- R138. -/
def LaneRecord.reset : LaneRecord where
  state := .down
  creditLimit := 0
  credits := 0
  owed := 0
  trainSent := false
  trainingTimer := none
  holdOffTimer := none
  ingress := []
  busy := false
  queue := []
  roundRobin := 0
  transmitter := none

/-- R195. -/
def CounterBank.reset : CounterBank where
  values := Vector.replicate 16 0
  stats := none

/-- No claim is in progress. -/
def Claims.reset : Claims where
  waiting := []
  locks := []
  pullClaims := 0
  allocationClaims := 0
  nextTag := 0
  choices := 0

/-- The machine right after power-on (R190). -/
def State.reset : State where
  host := HostPort.reset
  ring := RingUnit.reset
  spill := SpillCache.reset
  matching := MatchUnit.reset
  peers := Vector.replicate 256 PeerRecord.reset
  contexts := ReassemblyUnit.reset
  mover := DataMover.reset
  sending := SendUnit.reset
  laneA := LaneRecord.reset
  laneB := LaneRecord.reset
  counters := CounterBank.reset
  claims := Claims.reset
  outbox := []
  pending := []

end Sys2Proof.Machine
end

