-- ==== Sys2Proof/Machine/Access.lean ====
section
/-! DEFINITION. One setter for each block of State, and the two lanes by name. The lemmas about them are in
Sys2Proof/Laws/State.lean. -/

namespace Sys2Proof.Machine

/-- The state with its host part replaced. -/
def State.setHost (s : State) (x : HostPort) : State := { s with host := x }

/-- The state with its ring part replaced. -/
def State.setRing (s : State) (x : RingUnit) : State := { s with ring := x }

/-- The state with its spill part replaced. -/
def State.setSpill (s : State) (x : SpillCache) : State := { s with spill := x }

/-- The state with its matching part replaced. -/
def State.setMatching (s : State) (x : MatchUnit) : State := { s with matching := x }

/-- The state with its peers part replaced. -/
def State.setPeers (s : State) (x : Vector PeerRecord 256) : State := { s with peers := x }

/-- The state with its contexts part replaced. -/
def State.setContexts (s : State) (x : ReassemblyUnit) : State := { s with contexts := x }

/-- The state with its mover part replaced. -/
def State.setMover (s : State) (x : DataMover) : State := { s with mover := x }

/-- The state with its sending part replaced. -/
def State.setSending (s : State) (x : SendUnit) : State := { s with sending := x }

/-- The state with its laneA part replaced. -/
def State.setLaneA (s : State) (x : LaneRecord) : State := { s with laneA := x }

/-- The state with its laneB part replaced. -/
def State.setLaneB (s : State) (x : LaneRecord) : State := { s with laneB := x }

/-- The state with its counters part replaced. -/
def State.setCounters (s : State) (x : CounterBank) : State := { s with counters := x }

/-- The state with its claims part replaced. -/
def State.setClaims (s : State) (x : Claims) : State := { s with claims := x }

/-- The state with its outbox part replaced. -/
def State.setOutbox (s : State) (x : List Output) : State := { s with outbox := x }

/-- The state with its pending part replaced. -/
def State.setPending (s : State) (x : List Instr) : State := { s with pending := x }

/-- The record of a lane. -/
def State.lane (s : State) : Lane → LaneRecord
  | .a => s.laneA
  | .b => s.laneB

/-- The state with the record of a lane replaced. -/
def State.setLane (s : State) (l : Lane) (x : LaneRecord) : State :=
  match l with
  | .a => s.setLaneA x
  | .b => s.setLaneB x

/-- The receive half of a node's peer record (R49). -/
def State.peer (s : State) (n : Node) : PeerRecord := tabGet s.peers n.toFin

/-- The state with a node's receive half replaced. -/
def State.setPeer (s : State) (n : Node) (p : PeerRecord) : State := s.setPeers (tabSet s.peers n.toFin p)

/-- A reassembly context (R72). -/
def State.context (s : State) (c : Fin 64) : Context := tabGet s.contexts.table c

/-- The state with a context's body replaced; its generation stays. -/
def State.setContextBody (s : State) (c : Fin 64) (b : ContextBody) : State :=
  s.setContexts { s.contexts with table := tabSet s.contexts.table c { s.context c with body := b } }

/-- A Send Table entry (R120). -/
def State.sendEntry (s : State) (i : Fin 32) : SendEntry := tabGet s.sending.table i

/-- The state with a Send Table entry replaced. -/
def State.setSendEntry (s : State) (i : Fin 32) (e : SendEntry) : State :=
  s.setSending { s.sending with table := tabSet s.sending.table i e }

/-- The send half of a node's peer record (R117). -/
def State.sendHalf (s : State) (n : Node) : SendHalf := tabGet s.sending.halves n.toFin

/-- The state with a node's send half replaced. -/
def State.setSendHalf (s : State) (n : Node) (h : SendHalf) : State :=
  s.setSending { s.sending with halves := tabSet s.sending.halves n.toFin h }

/-- The state with something more having left the part (log entry 3). -/
def State.emit (s : State) (o : Output) : State := s.setOutbox (s.outbox ++ [o])

end Sys2Proof.Machine
end

