-- ==== Sys2Proof/Machine/Bytes.lean ====
section
/-! DEFINITION. Byte orders, fields of records, and the frame CRC. -/

namespace Sys2Proof.Machine

/-- The `n` low bytes of a number, least significant first (00_scope 2.1: host records are little-endian). -/
def leBytes : Nat → Nat → Bytes
  | 0, _ => []
  | n + 1, v => BitVec.ofNat 8 v :: leBytes n (v / 256)

/-- The `n` low bytes of a number, most significant first (00_scope 2.1: frames are big-endian). -/
def beBytes (n v : Nat) : Bytes := (leBytes n v).reverse

/-- The number whose little-endian bytes these are. -/
def leValue : Bytes → Nat
  | [] => 0
  | b :: bs => b.toNat + 256 * leValue bs

/-- The `n` bytes at an offset. -/
def slice (bytes : Bytes) (offset n : Nat) : Bytes := (bytes.drop offset).take n

/-- A little-endian field of a record. -/
def leField (bytes : Bytes) (offset n : Nat) : Nat := leValue (slice bytes offset n)

/-- A big-endian field of a frame. -/
def beField (bytes : Bytes) (offset n : Nat) : Nat := leValue (slice bytes offset n).reverse

/-- One byte of a record, 0 past its end. -/
def byteAt (bytes : Bytes) (offset : Nat) : Byte := bytes.getD offset 0

/-- Whether every byte of a field is zero. -/
def zeroField (bytes : Bytes) (offset n : Nat) : Bool := (slice bytes offset n).all (· == 0)

/-- A flag as the value of one bit of a byte. -/
def flagBit (set : Bool) (bit : Nat) : Byte := if set then BitVec.twoPow 8 bit else 0

/-- One bit through the CRC register (R36: generator 0x04C11DB7, most significant bit first). -/
def crcBit (r : BitVec 32) : BitVec 32 :=
  if r.msb then (r <<< 1) ^^^ 0x04C11DB7#32 else r <<< 1

/-- One byte through the CRC register (R36). -/
def crcByte (r : BitVec 32) (b : Byte) : BitVec 32 :=
  crcBit (crcBit (crcBit (crcBit (crcBit (crcBit (crcBit (crcBit (r ^^^ (b.setWidth 32 <<< 24)))))))))

/-- The CRC of a header and payload: register preset to all ones, final remainder complemented (R36). -/
def crc32 (bytes : Bytes) : BitVec 32 := ~~~(bytes.foldl crcByte 0xFFFFFFFF#32)

end Sys2Proof.Machine
end

