-- ==== Sys2Proof/Machine/Flags.lean ====
section
/-! DEFINITION. The flags of the part: interrupt causes and the message signalled interrupt (R193, R194), the
statistics counters (R195), the fields of PART_STATE and the reads of the register window (R177, R178). -/

namespace Sys2Proof.Machine

/-! ### Interrupts -/

/-- Bit 0 of INT_CAUSE (R193). -/
def causeCompletion : BitVec 4 := 0b0001
/-- Bit 1 of INT_CAUSE (R193). -/
def causeEvent : BitVec 4 := 0b0010
/-- Bit 2 of INT_CAUSE (R193). -/
def causeState : BitVec 4 := 0b0100
/-- Bit 3 of INT_CAUSE (R193). -/
def causeFatal : BitVec 4 := 0b1000

/-- New values of the causes, the mask and the MSI enable: one message is sent when the enable is set and either
a cause becomes pending or the enable goes from clear to set while a cause is pending (R194). -/
def State.setInterrupts (s : State) (cause mask : BitVec 4) (enable : Bool) : State :=
  let before := s.host.intCause &&& s.host.intMask
  let after := cause &&& mask
  let gained := after &&& ~~~before
  let sent := enable && (gained != 0 || (!s.host.msiEnable && after != 0))
  let s := s.setHost { s.host with intCause := cause, intMask := mask, msiEnable := enable }
  if sent then s.emit .interrupt else s

/-- A cause is raised; raising a set cause leaves it set (R193). -/
def State.raise (s : State) (cause : BitVec 4) : State :=
  s.setInterrupts (s.host.intCause ||| cause) s.host.intMask s.host.msiEnable

/-! ### Counters -/

/-- The largest counter value (R195). -/
def counterMax : Nat := 4294967295

/-- An increment of `n` to counter `k`, saturating (R195). -/
def State.count (s : State) (k : Fin 16) (n : Nat) : State :=
  s.setCounters { s.counters with
    values := tabSet s.counters.values k
      (BitVec.ofNat 32 (min ((tabGet s.counters.values k).toNat + n) counterMax)) }

/-! ### Part states -/

/-- The part states in which frames, timers, completions and events act (9.3). -/
def PartState.active : PartState → Bool
  | .online | .stopping | .stopped => true
  | _ => false

/-- The part is in ONLINE, STOPPING or STOPPED. -/
def State.active (s : State) : Bool := s.host.partState.active

/-- The part state codes (R178). -/
def PartState.code : PartState → Nat
  | .idle => 0
  | .loading => 1
  | .online => 2
  | .stopping => 3
  | .stopped => 4
  | .failed => 5

/-- The lane state codes (R140, R178). -/
def LaneState.code : LaneState → Nat
  | .disabled => 0
  | .down => 1
  | .training => 2
  | .up => 3
  | .fault => 4

/-- The last command result codes (R178). -/
def CommandResult.code : CommandResult → Nat
  | .accepted => 0
  | .ignored => 1

/-- The failure cause codes (R178). -/
def FailureCause.code : FailureCause → Nat
  | .noFailure => 0
  | .requestRing => 1
  | .spillRing => 2

/-- PART_STATE as it reads (R178). -/
def State.partStateRegister (s : State) : BitVec 32 :=
  BitVec.ofNat 32 (s.host.partState.code + 16 * s.host.setupError + 256 * s.host.lastResult.code
    + 512 * s.host.failureCause.code + 4096 * s.laneA.state.code + 65536 * s.laneB.state.code)

/-- What a 32-bit read at an offset of the register window returns (R177, R178, R190). -/
def State.readRegister (s : State) (offset : BitVec 12) : BitVec 32 :=
  if offset = 0x000 then 0x2F400001
  else if offset = 0x008 then s.partStateRegister
  else if offset = 0x010 then s.host.setupAddrLo
  else if offset = 0x014 then s.host.setupAddrHi
  else if offset = 0x020 then s.ring.rqTail.setWidth 32
  else if offset = 0x024 then s.ring.srTail.setWidth 32
  else if offset = 0x028 then s.ring.cqHead.setWidth 32
  else if offset = 0x02C then s.ring.erHead.setWidth 32
  else if offset = 0x030 then s.host.intCause.setWidth 32
  else if offset = 0x034 then s.host.intMask.setWidth 32
  else 0

/-- What a read of `n` bytes inside the register at `offset`, from byte `at` of it, returns (R177). -/
def State.readRegisterBytes (s : State) (offset : BitVec 12) (first n : Nat) : Bytes :=
  slice (leBytes 4 (s.readRegister offset).toNat) first n

end Sys2Proof.Machine
end

