-- ==== Sys2Proof/Machine/Records.lean ====
section
/-! DEFINITION. The codes and layouts of what the part writes: completion records (R167, R168), event records
(R174), lap markers (R161), frames (R34 to R36). -/

namespace Sys2Proof.Machine

/-- The status codes (R168). -/
def Status.code : Status → BitVec 8
  | .ok => 0x00
  | .truncated => 0x01
  | .cancelled => 0x02
  | .tooLate => 0x03
  | .notFound => 0x04
  | .badRequest => 0x40
  | .noEntry => 0x41
  | .noResource => 0x42
  | .domainNotOpen => 0x43
  | .domainBusy => 0x44
  | .alreadyOpen => 0x45
  | .timeout => 0x80
  | .dataLost => 0x81
  | .refused => 0x82
  | .peerRestart => 0x83
  | .remoteAbort => 0x84
  | .aborted => 0x85
  | .hostReadError => 0x86

/-- The kind byte of a SPILL_RELEASED completion (R167). -/
def spillReleasedKind : BitVec 8 := 16

/-- The completion is a SPILL_RELEASED, whose status is OK; a BAD_REQUEST may carry the same kind byte, as read
(R105, R165, R167). -/
def Completion.isSpillReleased (c : Completion) : Bool := c.kind == spillReleasedKind && c.status == .ok

/-- The lap marker at a producer count (R161). -/
def lapMarker (count : BitVec 16) (size : Nat) : Bool := (count.toNat / size) % 2 == 0

/-- The 32-byte completion record (R167). -/
def Completion.bytes (c : Completion) (marker : Bool) : Bytes :=
  [c.kind, c.status.code, c.detail,
    flagBit marker 0 ||| flagBit c.token.isSome 1 ||| flagBit c.unconfirmed 2 ||| flagBit c.rendezvous 3,
    c.domain, 0]
  ++ leBytes 2 c.peer.toNat ++ leBytes 8 c.cookie.toNat ++ leBytes 4 c.tag.toNat
  ++ leBytes 4 c.delivered ++ leBytes 4 c.length ++ leBytes 4 (c.token.getD 0).toNat

/-- The event kind codes (R174). -/
def EventKind.code : EventKind → BitVec 8
  | .laneState => 1
  | .peerRestart => 2
  | .sequenceGap => 3
  | .protocolError => 4
  | .resourceExhausted => 5
  | .ringIndexError => 6
  | .partState => 7

/-- The 32-byte event record (R174). -/
def Event.bytes (e : Event) (marker : Bool) (lost : BitVec 16) (tick : Tick) : Bytes :=
  [e.kind.code, 0, 0, flagBit marker 0]
  ++ leBytes 2 lost.toNat ++ leBytes 2 e.node.toNat ++ leBytes 2 e.seq.toNat ++ [0, 0]
  ++ leBytes 4 e.paramA.toNat ++ leBytes 4 e.paramB.toNat ++ leBytes 8 tick.toNat ++ [0, 0, 0, 0]

/-- The frame kind codes (R34). -/
def FrameKind.code : FrameKind → BitVec 4
  | .data => 1
  | .announce => 2
  | .pull => 3
  | .pdata => 4
  | .ack => 5
  | .refuse => 6
  | .retract => 7
  | .abort => 8
  | .train => 9
  | .trainAck => 10
  | .credit => 11

/-- The kind a code names; 0 and 12 to 15 name none (R34). -/
def FrameKind.ofCode (c : BitVec 4) : Option FrameKind :=
  match c.toNat with
  | 1 => some .data
  | 2 => some .announce
  | 3 => some .pull
  | 4 => some .pdata
  | 5 => some .ack
  | 6 => some .refuse
  | 7 => some .retract
  | 8 => some .abort
  | 9 => some .train
  | 10 => some .trainAck
  | 11 => some .credit
  | _ => none

/-- The 28-byte header (R35). -/
def Frame.header (f : Frame) : Bytes :=
  [f.kind.code ++ f.flags, f.dest, f.source, f.epoch]
  ++ beBytes 2 f.seq.toNat ++ beBytes 2 f.windowBase.toNat ++ beBytes 4 f.tag.toNat
  ++ [f.domain, f.reason] ++ beBytes 2 f.payloadLength.toNat
  ++ beBytes 4 f.total.toNat ++ beBytes 4 f.offset.toNat
  ++ beBytes 2 f.handle.toNat ++ beBytes 2 f.contextRef.toNat

/-- The frame as it is sent: header, payload and CRC (R35, R36). -/
def Frame.bytes (f : Frame) : Bytes :=
  let body := f.header ++ f.payload
  body ++ beBytes 4 (crc32 body).toNat

end Sys2Proof.Machine
end

