-- ==== Sys2Proof/Machine/Operands.lean ====
section
/-! DEFINITION. Operand forms: how the bytes that reach the part are read. Frames (R35 to R40), request records
(R163 to R165), spill entries (R99, R171), the Setup Block (R179, R180), and the references frames carry
(R45, R46). -/

namespace Sys2Proof.Machine

/-! ### Frames -/

/-- The header and payload of a received frame, or nothing when its kind code names no kind (R34, R35). -/
def parseFrame (bytes : Bytes) : Option Frame :=
  (FrameKind.ofCode ((byteAt bytes 0).extractLsb' 4 4)).map fun kind =>
    { kind
      flags := (byteAt bytes 0).extractLsb' 0 4
      dest := byteAt bytes 1
      source := byteAt bytes 2
      epoch := byteAt bytes 3
      seq := BitVec.ofNat 16 (beField bytes 4 2)
      windowBase := BitVec.ofNat 16 (beField bytes 6 2)
      tag := BitVec.ofNat 32 (beField bytes 8 4)
      domain := byteAt bytes 12
      reason := byteAt bytes 13
      payloadLength := BitVec.ofNat 16 (beField bytes 14 2)
      total := BitVec.ofNat 32 (beField bytes 16 4)
      offset := BitVec.ofNat 32 (beField bytes 20 4)
      handle := BitVec.ofNat 16 (beField bytes 24 2)
      contextRef := BitVec.ofNat 16 (beField bytes 26 2)
      payload := slice bytes 28 (bytes.length - 32) }

/-- A received frame of 32 to 288 bytes whose last four bytes are the CRC of the others (R35, R36). -/
def crcGood (bytes : Bytes) : Bool :=
  32 ≤ bytes.length && bytes.length ≤ 288 &&
    slice bytes (bytes.length - 4) 4 == beBytes 4 (crc32 (bytes.take (bytes.length - 4))).toNat

/-- The TO_RECEIVER flag of an ABORT (R35). -/
def Frame.toReceiver (f : Frame) : Bool := f.flags.getLsbD 1

/-- The RETRACTED flag of an ACK (R35). -/
def Frame.retracted (f : Frame) : Bool := f.flags.getLsbD 0

/-- Kinds that pass only between a part and its switch port (R38). -/
def FrameKind.ofLane : FrameKind → Bool
  | .train | .trainAck | .credit => true
  | _ => false

/-- The flag bits R37 lets a kind set. -/
def FrameKind.flagMask : FrameKind → BitVec 4
  | .ack => 0b0001
  | .abort => 0b0010
  | _ => 0

/-- Whether R37 gives the field meaning for the frame's kind; an ABORT's column follows its TO_RECEIVER flag. -/
def Frame.usesSeq (f : Frame) : Bool :=
  match f.kind with
  | .data | .announce | .pull | .ack | .refuse | .retract => true
  | .abort => !f.toReceiver
  | _ => false

/-- As usesSeq, for the window base, tag and domain fields (R37 marks them alike). -/
def Frame.opensMessage (f : Frame) : Bool :=
  match f.kind with
  | .data | .announce => true
  | _ => false

/-- As usesSeq, for the payload length and offset fields. -/
def Frame.carriesPayload (f : Frame) : Bool :=
  match f.kind with
  | .data | .pdata => true
  | _ => false

/-- As usesSeq, for the total length field. -/
def Frame.usesTotal (f : Frame) : Bool :=
  match f.kind with
  | .data | .announce | .pull | .pdata | .train | .trainAck | .credit => true
  | _ => false

/-- As usesSeq, for the reason field. -/
def Frame.usesReason (f : Frame) : Bool :=
  match f.kind with
  | .refuse | .abort => true
  | _ => false

/-- As usesSeq, for the sender handle field. -/
def Frame.usesHandle (f : Frame) : Bool := f.usesSeq

/-- As usesSeq, for the receiver context reference field. -/
def Frame.usesContextRef (f : Frame) : Bool :=
  match f.kind with
  | .pull | .pdata => true
  | .abort => f.toReceiver
  | _ => false

/-- Condition 3 of R40: every field and flag bit R37 marks zero for the kind is zero. -/
def Frame.unusedZero (f : Frame) : Bool :=
  f.flags &&& ~~~f.kind.flagMask == 0
  && (!f.kind.ofLane || (f.source == 0 && f.epoch == 0))
  && (f.usesSeq || f.seq == 0)
  && (f.opensMessage || (f.windowBase == 0 && f.tag == 0 && f.domain == 0))
  && (f.usesReason || f.reason == 0)
  && (f.carriesPayload || (f.payloadLength == 0 && f.offset == 0))
  && (f.usesTotal || f.total == 0)
  && (f.usesHandle || f.handle == 0)
  && (f.usesContextRef || f.contextRef == 0)

/-- The longest message, 4 MiB (00_scope 2.2). -/
def maxMessage : Nat := 4194304

/-- The longest EAGER message (00_scope 2.2). -/
def maxEager : Nat := 16384

/-- Conditions 5 to 8 of R40 on lengths, offset and reason, for the kinds they name. -/
def Frame.fieldsInRange (f : Frame) : Bool :=
  f.domain.toNat ≤ 63 && f.total.toNat ≤ maxMessage &&
  match f.kind with
  | .data =>
    f.total.toNat ≤ maxEager && f.offset.toNat % 256 == 0
      && (f.offset.toNat < f.total.toNat || (f.offset == 0 && f.total == 0))
      && f.payloadLength.toNat == min 256 (f.total.toNat - f.offset.toNat)
  | .pdata =>
    1 ≤ f.total.toNat && f.offset.toNat % 256 == 0 && f.offset.toNat < f.total.toNat
      && f.payloadLength.toNat == min 256 (f.total.toNat - f.offset.toNat)
  | .pull => 1 ≤ f.total.toNat
  | .refuse => 1 ≤ f.reason.toNat && f.reason.toNat ≤ 7
  | .abort => 1 ≤ f.reason.toNat && f.reason.toNat ≤ 5
  | .train | .trainAck | .credit => 1 ≤ f.total.toNat && f.total.toNat ≤ 64
  | _ => true

/-- A frame of `count` bytes is well-formed (R40; condition 1 is that it has a kind). -/
def Frame.wellFormed (f : Frame) (count : Nat) : Bool :=
  count == 32 + f.payloadLength.toNat
  && f.unusedZero
  && f.fieldsInRange
  && (!f.usesContextRef || f.contextRef.extractLsb' 14 2 == 0)
  && (f.kind.ofLane || f.source != f.dest)

/-! ### References -/

/-- The Send Table index of a sender handle (R45). -/
def handleIndex (h : BitVec 16) : Fin 32 := (h.extractLsb' 0 5).toFin

/-- The generation of a sender handle (R45). -/
def handleGeneration (h : BitVec 16) : BitVec 11 := h.extractLsb' 5 11

/-- The sender handle of a Send Table entry (R45). -/
def makeHandle (index : Fin 32) (generation : BitVec 11) : BitVec 16 :=
  generation ++ BitVec.ofNat 5 index.val

/-- The context id of a receiver context reference (R46). -/
def refContext (r : BitVec 16) : Fin 64 := (r.extractLsb' 0 6).toFin

/-- The generation of a receiver context reference (R46). -/
def refGeneration (r : BitVec 16) : BitVec 8 := r.extractLsb' 6 8

/-- The receiver context reference of a context (R46). -/
def makeRef (id : Fin 64) (generation : BitVec 8) : BitVec 16 :=
  0#2 ++ generation ++ BitVec.ofNat 6 id.val

/-- The Peer Table index of a node. -/
def nodeIndex (n : Node) : Fin 256 := n.toFin

/-- The domain table index of a domain byte (well-formed frames and valid requests hold 0..63). -/
def domainIndex (d : BitVec 8) : Fin 64 := (d.extractLsb' 0 6).toFin

/-- A domain as the byte of a record. -/
def domainByte (d : Fin 64) : BitVec 8 := BitVec.ofNat 8 d.val

/-! ### Request records (R163) -/

def requestFlags (r : Bytes) : BitVec 8 := byteAt r 1
def requestSegmentCount (r : Bytes) : Nat := (byteAt r 2).toNat
def requestPeer (r : Bytes) : BitVec 16 := BitVec.ofNat 16 (leField r 4 2)
def requestCookie (r : Bytes) : BitVec 64 := BitVec.ofNat 64 (leField r 8 8)
def requestTarget (r : Bytes) : BitVec 64 := BitVec.ofNat 64 (leField r 24 8)
def requestDeadline (r : Bytes) : BitVec 32 := BitVec.ofNat 32 (leField r 32 4)

/-- Segment j of a record, at bytes 40 + 16 j. -/
def requestSegment (r : Bytes) (j : Nat) : Segment where
  address := BitVec.ofNat 64 (leField r (40 + 16 * j) 8)
  length := leField r (48 + 16 * j) 4

/-- The used segments: those below the segment count (R163). -/
def requestSegments (r : Bytes) : List Segment :=
  (List.range (min 4 (requestSegmentCount r))).map (requestSegment r)

/-- The exact sum of segment lengths (R165, check 6). -/
def segmentTotal : List Segment → Nat
  | [] => 0
  | g :: gs => g.length + segmentTotal gs

/-- The request kinds (R163). -/
inductive RequestKind where
  | nop
  | postRecv
  | cancelRecv
  | probe
  | send
  | cancelSend
  | domainOpen
  | domainClose
  | stats
  deriving DecidableEq, Repr

/-- The kind byte of a request kind (R163). -/
def RequestKind.code : RequestKind → BitVec 8
  | .nop => 1
  | .postRecv => 2
  | .cancelRecv => 3
  | .probe => 4
  | .send => 5
  | .cancelSend => 6
  | .domainOpen => 7
  | .domainClose => 8
  | .stats => 9

/-- The flag bits R164 lets a kind set: NOTIFY for all, and one more for three of them. -/
def RequestKind.flagMask : RequestKind → BitVec 8
  | .postRecv => 0b0011
  | .send => 0b0101
  | .stats => 0b1001
  | _ => 0b0001

/-- The segment counts R164 gives a kind. -/
def RequestKind.countInRange (k : RequestKind) (count : Nat) : Bool :=
  match k with
  | .postRecv => 1 ≤ count && count ≤ 4
  | .send => count ≤ 4
  | _ => count == 0

/-- Kinds that carry a domain (R164). -/
def RequestKind.usesDomain : RequestKind → Bool
  | .postRecv | .cancelRecv | .probe | .send | .domainOpen | .domainClose => true
  | _ => false

/-- Kinds that carry a peer (R164). -/
def RequestKind.usesPeer : RequestKind → Bool
  | .postRecv | .probe | .send => true
  | _ => false

/-- Kinds that carry a tag (R164: the kinds that carry a peer). -/
def RequestKind.usesTag (k : RequestKind) : Bool := k.usesPeer

/-- Kinds that carry an ignore mask (R164). -/
def RequestKind.usesMask : RequestKind → Bool
  | .postRecv | .probe => true
  | _ => false

/-- Kinds that use bytes 24 to 31 (R164). -/
def RequestKind.usesTarget : RequestKind → Bool
  | .cancelRecv | .cancelSend | .stats => true
  | _ => false

/-- Whether the record carries deadline ticks: a POST_RECV with DEADLINE set (R164). -/
def usesDeadline (k : RequestKind) (r : Bytes) : Bool :=
  k == .postRecv && (requestFlags r).getLsbD 1

/-- Check 4 of R165 passes: every byte R163 marks zero, or R164 marks 0 for the kind, is zero. -/
def unusedRequestZero (k : RequestKind) (r : Bytes) : Bool :=
  (k.usesDomain || zeroField r 3 1)
  && (k.usesPeer || zeroField r 4 2)
  && zeroField r 6 2
  && (k.usesTag || zeroField r 16 4)
  && (k.usesMask || zeroField r 20 4)
  && (k.usesTarget || zeroField r 24 8)
  && (usesDeadline k r || zeroField r 32 4)
  && zeroField r 36 4
  && (List.range 4).all (fun j =>
      if j < requestSegmentCount r then zeroField r (52 + 16 * j) 4 else zeroField r (40 + 16 * j) 16)
  && zeroField r 104 24

/-- The first failed check of R165 from BAD_FLAG on, as its detail code; `own` is the own node id. -/
def requestFault (own : Node) (k : RequestKind) (r : Bytes) : Option (BitVec 8) :=
  if requestFlags r &&& ~~~k.flagMask != 0 then some 2
  else if !k.countInRange (requestSegmentCount r) then some 3
  else if !unusedRequestZero k r then some 4
  else if (requestSegments r).any (·.length == 0) then some 5
  else if maxMessage < segmentTotal (requestSegments r) then some 6
  else if k.usesDomain && 63 < (byteAt r 3).toNat then some 7
  else if (k == .postRecv || k == .probe) && 255 < (requestPeer r).toNat && requestPeer r != 0xFFFF then some 8
  else if k == .send && 255 < (requestPeer r).toNat then some 8
  else if k == .send && requestPeer r == own.setWidth 16 then some 9
  else if usesDeadline k r && requestDeadline r == 0 then some 10
  else if k == .stats && (requestTarget r).toNat % 64 != 0 then some 11
  else none

/-- The fields of a record that has passed validation (R163). -/
def parseRequest (r : Bytes) : Request where
  notify := (requestFlags r).getLsbD 0
  hasDeadline := (requestFlags r).getLsbD 1
  forceRdv := (requestFlags r).getLsbD 2
  clear := (requestFlags r).getLsbD 3
  domain := domainIndex (byteAt r 3)
  peer := requestPeer r
  cookie := requestCookie r
  tag := BitVec.ofNat 32 (leField r 16 4)
  mask := BitVec.ofNat 32 (leField r 20 4)
  target := requestTarget r
  deadline := requestDeadline r
  segments := requestSegments r
  total := segmentTotal (requestSegments r)

/-- The BAD_REQUEST completion of a record (R165). -/
def badRequest (r : Bytes) (detail : BitVec 8) : Completion :=
  { kind := byteAt r 0, status := .badRequest, detail, cookie := requestCookie r,
    notify := (requestFlags r).getLsbD 0 }

/-! ### Spill entries (R171) -/

/-- The address and token of a Spill Ring slot. -/
def parseSpill (slot : Bytes) : SpillEntry where
  address := BitVec.ofNat 64 (leField slot 0 8)
  token := BitVec.ofNat 32 (leField slot 8 4)

/-- A slot is bad when its address is not a multiple of 256 or its final four bytes are not zero (R99). -/
def badSpill (slot : Bytes) : Bool :=
  leField slot 0 8 % 256 != 0 || !zeroField slot 12 4

/-! ### The Setup Block (R179, R180) -/

/-- The fields of a Setup Block. -/
def parseSetup (b : Bytes) : Setup where
  nodeId := byteAt b 0
  epoch := byteAt b 1
  laneMask := byteAt b 2
  tickPeriod := leField b 4 4
  requestBase := BitVec.ofNat 64 (leField b 8 8)
  spillBase := BitVec.ofNat 64 (leField b 16 8)
  completionBase := BitVec.ofNat 64 (leField b 24 8)
  eventBase := BitVec.ofNat 64 (leField b 32 8)
  requestSize := leField b 40 2
  spillRingSize := leField b 42 2
  completionSize := leField b 44 2
  eventSize := leField b 46 2
  shadow := BitVec.ofNat 64 (leField b 48 8)
  spillSize := leField b 56 2
  eagerLimit := leField b 58 2
  unexpectedLimit := leField b 60 2
  ageLimit := leField b 64 2
  gapLimit := leField b 66 2
  responseLimit := leField b 68 2

/-- A power of two from 16 to 4096 (R180, check 2). -/
def ringSizeGood (n : Nat) : Bool := [16, 32, 64, 128, 256, 512, 1024, 2048, 4096].contains n

/-- The first failed check of R180 after READ_FAILED, as its setup error code. -/
def setupFault (c : Setup) : Option Nat :=
  if !([c.requestSize, c.spillRingSize, c.completionSize, c.eventSize].all ringSizeGood) then some 2
  else if !([c.requestBase, c.spillBase, c.completionBase, c.eventBase].all (·.toNat % 4096 == 0))
    || c.shadow.toNat % 32 != 0 then some 3
  else if c.laneMask.toNat == 0 || 3 < c.laneMask.toNat then some 4
  else if c.tickPeriod == 0 || 1000 < c.tickPeriod then some 5
  else if c.spillSize < 256 || 16384 < c.spillSize || c.spillSize % 256 != 0 then some 6
  else if 16384 < c.eagerLimit then some 7
  else if 1024 < c.unexpectedLimit || c.ageLimit == 0 || c.gapLimit == 0 || c.responseLimit == 0 then some 8
  else none

/-! ### Scatter/gather lists (R84) -/

/-- Bytes laid from message offset `offset` on, split into one piece per segment they touch, ascending (R84). -/
def scatter : List Segment → Nat → Bytes → List (BitVec 64 × Bytes)
  | [], _, _ => []
  | g :: gs, offset, bytes =>
    if bytes.isEmpty then []
    else if g.length ≤ offset then scatter gs (offset - g.length) bytes
    else
      (g.address + BitVec.ofNat 64 offset, bytes.take (g.length - offset))
        :: scatter gs 0 (bytes.drop (g.length - offset))

/-- The address ranges that message bytes `offset` to `offset + n - 1` occupy in the segments (R84, R122). -/
def gather : List Segment → Nat → Nat → List (BitVec 64 × Nat)
  | [], _, _ => []
  | g :: gs, offset, n =>
    if n = 0 then []
    else if g.length ≤ offset then gather gs (offset - g.length) n
    else
      (g.address + BitVec.ofNat 64 offset, min n (g.length - offset))
        :: gather gs 0 (n - (g.length - offset))

end Sys2Proof.Machine
end

