-- ==== Sys2Proof/Machine/Ops.lean ====
section
/-! DEFINITION. The Ring Unit's operations, the bus-master reads and writes, and the exhaustion latches, which
every other block uses. -/

namespace Sys2Proof.Machine

/-! ### The held Setup values -/

/-- The values of no Setup Block: what a part that holds none computes with, though nothing reads it there. -/
def Setup.blank : Setup := parseSetup []

/-- The Setup values the part holds (R181). -/
def State.setup (s : State) : Setup := s.host.setup.getD Setup.blank

/-! ### Bus-master transfers -/

/-- A posted write is issued (R84, R160). -/
def State.hostWrite (s : State) (address : BitVec 64) (bytes : Bytes) : State := s.emit (.write address bytes)

/-- Posted writes in the order given. -/
def State.hostWrites (s : State) : List (BitVec 64 × Bytes) → State
  | [] => s
  | (address, bytes) :: rest => (s.hostWrite address bytes).hostWrites rest

/-- The number the next host read gets (log entry 4). -/
def State.nextTag (s : State) : Nat := s.claims.nextTag

/-- A read is issued under the next number. -/
def State.hostRead (s : State) (address : BitVec 64) (length : Nat) : State :=
  (s.emit (.read s.nextTag address length)).setClaims { s.claims with nextTag := s.nextTag + 1 }

/-! ### Rings (R155, R156) -/

/-- The occupancy of a ring (R156). -/
def occupancy (tail head : BitVec 16) : Nat := (tail - head).toNat

/-- The address of the slot that belongs to a count (R155). -/
def slotAddress (base : BitVec 64) (count : BitVec 16) (size slot : Nat) : BitVec 64 :=
  base + BitVec.ofNat 64 ((count.toNat % size) * slot)

/-- The 32 bytes of a shadow write: the four part counts as they stand (R160). -/
def RingUnit.shadowBytes (r : RingUnit) : Bytes :=
  leBytes 4 r.requestHead.toNat ++ leBytes 4 r.spillHead.toNat ++ leBytes 4 r.completionTail.toNat
    ++ leBytes 4 r.eventTail.toNat ++ List.replicate 16 0

/-- A shadow write (R160). -/
def State.shadowWrite (s : State) : State := s.hostWrite s.setup.shadow s.ring.shadowBytes

/-! ### Events (R175, R176) -/

/-- The Event Ring has room (R156). -/
def State.eventRoom (s : State) : Bool := decide (occupancy s.ring.eventTail s.ring.erHead < s.setup.eventSize)

/-- An event is written into the slot of the event tail (R175). -/
def State.writeEvent (s : State) (e : Event) : State :=
  let r := s.ring
  let s := s.hostWrite (slotAddress s.setup.eventBase r.eventTail s.setup.eventSize 32)
    (e.bytes (lapMarker r.eventTail s.setup.eventSize) r.lost s.host.tick)
  let s := s.setRing { r with lost := 0, eventTail := r.eventTail + 1 }
  s.shadowWrite.raise causeEvent

/-- An event is lost: the lost count rises unless it stands at 65535, and counter 14 rises (R175). -/
def State.loseEvent (s : State) : State :=
  let s := s.setRing { s.ring with lost := if s.ring.lost = 65535 then 65535 else s.ring.lost + 1 }
  s.count 14 1

/-- An event is given to the Ring Unit, which takes events in ONLINE, STOPPING and STOPPED only (R175, R176). -/
def State.giveEvent (s : State) (e : Event) : State :=
  if s.active then (if s.eventRoom then s.writeEvent e else s.loseEvent) else s

/-! ### Completions (R169, R170, R173) -/

/-- The Completion Ring has room (R156). -/
def State.completionRoom (s : State) : Bool :=
  decide (occupancy s.ring.completionTail s.ring.cqHead < s.setup.completionSize)

/-- A completion is written into the slot of the completion tail (R170); COMPLETION is raised when it carries
NOTIFY or is a SPILL_RELEASED (R173). -/
def State.writeCompletion (s : State) (c : Completion) : State :=
  let r := s.ring
  let s := s.hostWrite (slotAddress s.setup.completionBase r.completionTail s.setup.completionSize 32)
    (c.bytes (lapMarker r.completionTail s.setup.completionSize))
  let s := s.setRing { r with completionTail := r.completionTail + 1 }
  let s := s.shadowWrite
  if c.notify || c.isSpillReleased then s.raise causeCompletion else s

/-- How many completions the Completion Holding Queue holds at most (R169). -/
def chqSize : Nat := 16

/-- A completion is taken while the CHQ holds fewer than 16: written when the ring has room and the CHQ is empty,
else held (R169). -/
def State.takeCompletion (s : State) (c : Completion) : State :=
  if s.ring.chq.isEmpty && s.completionRoom then s.writeCompletion c
  else s.setRing { s.ring with chq := s.ring.chq ++ [c] }

/-- The CHQ drains, head first, while the Completion Ring has room; the list is the CHQ (R170). -/
def State.drainHeld (s : State) : List Completion → State
  | [] => s
  | c :: rest =>
    if s.completionRoom then ((s.setRing { s.ring with chq := rest }).writeCompletion c).drainHeld rest else s

/-- The CHQ drains (R170). -/
def State.drainChq (s : State) : State := s.drainHeld s.ring.chq

/-! ### Exhaustion latches (R106, R107) -/

/-- The three resources that can run out (R107). -/
inductive Resource where
  | pool
  | spill
  | context
  deriving DecidableEq, Repr

/-- The code of a resource in a RESOURCE_EXHAUSTED event (R107). -/
def Resource.code : Resource → BitVec 32
  | .pool => 1
  | .spill => 2
  | .context => 3

/-- A resource's latch (R106). -/
def MatchUnit.latch (m : MatchUnit) : Resource → Bool
  | .pool => m.poolLatch
  | .spill => m.spillLatch
  | .context => m.contextLatch

/-- A resource's latch set or cleared. -/
def MatchUnit.setLatch (m : MatchUnit) (r : Resource) (set : Bool) : MatchUnit :=
  match r with
  | .pool => { m with poolLatch := set }
  | .spill => { m with spillLatch := set }
  | .context => { m with contextLatch := set }

/-- A success of a resource clears its latch (R106). -/
def State.resourceTaken (s : State) (r : Resource) : State := s.setMatching (s.matching.setLatch r false)

/-- A refusal of a resource gives one event while the latch is clear, and sets it (R106, R107). -/
def State.resourceRefused (s : State) (r : Resource) (node : BitVec 16) (seq : Seq) (domain : Fin 64) : State :=
  if s.matching.latch r then s
  else
    let s := s.giveEvent
      { kind := .resourceExhausted, node, seq, paramA := r.code, paramB := BitVec.ofNat 32 domain.val }
    s.setMatching (s.matching.setLatch r true)

/-! ### Locks (log entry 6) -/

/-- No claim in progress holds the unit. -/
def State.unheld (s : State) (l : Lock) : Bool := !s.claims.locks.contains l

/-- A claim on the unit begins. -/
def State.hold (s : State) (l : Lock) : State := s.setClaims { s.claims with locks := l :: s.claims.locks }

/-- The claim on the unit is finished. -/
def State.unhold (s : State) (l : Lock) : State := s.setClaims { s.claims with locks := s.claims.locks.erase l }

/-- One more pull service claim has been made (R76). -/
def State.claimPullService (s : State) : State :=
  s.setClaims { s.claims with pullClaims := s.claims.pullClaims + 1 }

/-- One more allocation claim has been made (R119). -/
def State.claimAllocation (s : State) : State :=
  s.setClaims { s.claims with allocationClaims := s.claims.allocationClaims + 1 }

/-- A step over a list whose every element may give completions, in the list's order. -/
def State.collect {α : Type} (s : State) : List α → (α → State → State × List Completion) → State × List Completion
  | [], _ => (s, [])
  | x :: xs, f =>
    let p := f x s
    let q := p.1.collect xs f
    (q.1, p.2 ++ q.2)

end Sys2Proof.Machine
end

