-- ==== Sys2Proof/Machine/Matching.lean ====
section
/-! DEFINITION. Match Unit operations (Chapter 1): the pool, matching, binding, ending a receive, the receive
requests, domain open and close, release, and the entries' part of a peer restart. -/

namespace Sys2Proof.Machine

/-! ### The pool and the lists (R1 to R5) -/

/-- The used entry with a number. -/
def MatchUnit.find (m : MatchUnit) (id : Nat) : Option Entry := m.store.find? (·.id == id)

/-- An entry's body is replaced; it stays in the pool under its number. -/
def MatchUnit.setBody (m : MatchUnit) (id : Nat) (body : EntryBody) : MatchUnit :=
  { m with store := m.store.map fun e => if e.id == id then { e with body } else e }

/-- An entry is used with these parts, under the next number. -/
def MatchUnit.addEntry (m : MatchUnit) (domain : Fin 64) (body : EntryBody) : MatchUnit :=
  { m with store := m.store ++ [{ id := m.nextEntry, domain, body }], nextEntry := m.nextEntry + 1 }

/-- A free entry is taken (R1). -/
def MatchUnit.takeEntry (m : MatchUnit) (domain : Fin 64) (body : EntryBody) : MatchUnit :=
  { m.addEntry domain body with free := m.free - 1 }

/-- An unmatched opening takes the entry it needs, ahead of its parts: the free count falls and the unexpected count
rises (R1, R20, step 2). -/
def MatchUnit.reserve (m : MatchUnit) : MatchUnit := { m with free := m.free - 1, unexpected := m.unexpected + 1 }

/-- The entry goes back: after a refusal nothing taken by an earlier step remains taken (R20). -/
def MatchUnit.unreserve (m : MatchUnit) : MatchUnit := { m with free := m.free + 1, unexpected := m.unexpected - 1 }

/-- An entry returns to the pool (R1). -/
def MatchUnit.returnEntry (m : MatchUnit) (id : Nat) : MatchUnit :=
  { m with store := m.store.filter (·.id != id), free := m.free + 1 }

/-- An entry joins the tail of PRL[d] (R3). -/
def MatchUnit.joinPrl (m : MatchUnit) (d : Fin 64) (id : Nat) : MatchUnit :=
  { m with prl := tabSet m.prl d (tabGet m.prl d ++ [id]) }

/-- An entry leaves PRL[d] from wherever it stands (R3). -/
def MatchUnit.leavePrl (m : MatchUnit) (d : Fin 64) (id : Nat) : MatchUnit :=
  { m with prl := tabSet m.prl d ((tabGet m.prl d).filter (· != id)) }

/-- An entry joins the tail of UML[d] (R4). -/
def MatchUnit.joinUml (m : MatchUnit) (d : Fin 64) (id : Nat) : MatchUnit :=
  { m with uml := tabSet m.uml d (tabGet m.uml d ++ [id]) }

/-- An entry leaves UML[d] from wherever it stands (R4). -/
def MatchUnit.leaveUml (m : MatchUnit) (d : Fin 64) (id : Nat) : MatchUnit :=
  { m with uml := tabSet m.uml d ((tabGet m.uml d).filter (· != id)) }

/-- The receive part of an entry (R2). -/
def EntryBody.receive : EntryBody → Option Receive
  | .posted r _ | .bound r _ _ => some r
  | .held _ | .ready _ => none

/-- The message part of an entry (R2). -/
def EntryBody.message : EntryBody → Option Message
  | .held m | .ready m | .bound _ m _ => some m
  | .posted _ _ => none

/-- The entry is BOUND. -/
def EntryBody.isBound : EntryBody → Bool
  | .bound _ _ _ => true
  | _ => false

/-- The state of a domain (1.4). -/
def State.domain (s : State) (d : Fin 64) : DomainRecord := tabGet s.matching.domains d

/-- The state with a domain record replaced. -/
def State.setDomain (s : State) (d : Fin 64) (x : DomainRecord) : State :=
  s.setMatching { s.matching with domains := tabSet s.matching.domains d x }

/-! ### Matching (R6) -/

/-- The selector ANY (R163). -/
def anySource : BitVec 16 := 0xFFFF

/-- A receive's selector, tag and mask match a message of the same domain (R6). -/
def accepts (selector : BitVec 16) (tag mask : BitVec 32) (m : Message) : Bool :=
  (selector == anySource || selector == m.source.setWidth 16) && (tag ^^^ m.tag) &&& ~~~mask == 0

/-- The first READY entry of UML[d], from the head, that a selector, tag and mask match (R6, R12, R16). -/
def MatchUnit.searchUml (u : MatchUnit) (d : Fin 64) (selector : BitVec 16) (tag mask : BitVec 32) :
    Option (Nat × Message) :=
  (tabGet u.uml d).findSome? fun id =>
    match u.find id with
    | some { body := .ready m, .. } => if accepts selector tag mask m then some (id, m) else none
    | _ => none

/-- The first POSTED entry of PRL[d], from the head, that matches a message (R6, R19, R23). -/
def MatchUnit.searchPrl (u : MatchUnit) (d : Fin 64) (m : Message) : Option (Nat × Receive) :=
  (tabGet u.prl d).findSome? fun id =>
    match u.find id with
    | some { body := .posted r _, .. } => if accepts r.selector r.tag r.mask m then some (id, r) else none
    | _ => none

/-! ### Contexts the Match Unit frees (R94, R95) -/

/-- A context becomes FREE and leaves the age list. -/
def State.releaseContext (s : State) (c : Fin 64) : State :=
  let s := s.setContextBody c .free
  s.setContexts { s.contexts with age := s.contexts.age.filter (· != c) }

/-- A context becomes FREE, and a pull service claim follows (R82, R94). -/
def State.freeContext (s : State) (c : Fin 64) : State := (s.releaseContext c).claimPullService

/-! ### Binding (R14) -/

/-- The wait state of a receive bound to a message (R14). -/
def waitFor (m : Message) : WaitState :=
  match m.mode, m.spill with
  | .rendezvous, _ => .awaitContext
  | .eager, none => .awaitData
  | .eager, some p => if p.fill == .complete then .awaitDrain else .awaitFill

/-- A BOUND entry joins the queue its wait state names (R5, R14, R108). -/
def State.joinQueue (s : State) (id : Nat) : WaitState → State
  | .awaitContext =>
    let first := s.matching.pullQueue.isEmpty
    let s := s.setMatching { s.matching with pullQueue := s.matching.pullQueue ++ [id] }
    if first then s.claimPullService else s
  | .awaitDrain => s.setMover { s.mover with queue := s.mover.queue ++ [id] }
  | _ => s

/-- An entry becomes BOUND: a receive joined to a message (R14). -/
def State.bind (s : State) (id : Nat) (r : Receive) (m : Message) : State :=
  (s.setMatching (s.matching.setBody id (.bound r m (waitFor m)))).joinQueue id (waitFor m)

/-! ### Completions of receives and spill buffers (R26, R105) -/

/-- The completion of a receive that ended with a message bound (R26). -/
def boundCompletion (d : Fin 64) (r : Receive) (m : Message) (status : Status) (detail : BitVec 8) : Completion :=
  { kind := RequestKind.postRecv.code, status, detail, rendezvous := m.mode == .rendezvous, domain := domainByte d,
    peer := m.source.setWidth 16, cookie := r.cookie, tag := m.tag,
    delivered := if status == .ok || status == .truncated then min m.length r.total else 0,
    length := m.length, token := m.spill.map (·.token), notify := r.notify }

/-- The completion of a receive that ended POSTED, or at once (R26). -/
def unboundCompletion (d : Fin 64) (cookie : BitVec 64) (selector : BitVec 16) (tag : BitVec 32) (notify : Bool)
    (status : Status) : Completion :=
  { kind := RequestKind.postRecv.code, status, domain := domainByte d, peer := selector, cookie, tag, notify }

/-- OK, or TRUNCATED when the message is longer than the receive (R24). -/
def deliveredStatus (r : Receive) (m : Message) : Status := if r.total < m.length then .truncated else .ok

/-- The details of a SPILL_RELEASED completion (R105). -/
inductive ReleaseCause where
  | badSpill
  | closed
  | expired
  | restarted
  deriving DecidableEq, Repr

/-- The detail code of a cause (R105). -/
def ReleaseCause.code : ReleaseCause → BitVec 8
  | .badSpill => 1
  | .closed => 2
  | .expired => 3
  | .restarted => 4

/-- The SPILL_RELEASED completion of an entry's spill buffer, if it holds one (R105). -/
def spillReleased (d : Fin 64) (m : Message) (cause : ReleaseCause) : List Completion :=
  match m.spill with
  | some p =>
    [{ kind := spillReleasedKind, detail := cause.code, domain := domainByte d, peer := m.source.setWidth 16,
       tag := m.tag, length := m.length, token := some p.token }]
  | none => []

/-! ### The end of a close and of a receive (R10, R24) -/

/-- A domain holds a BOUND entry. -/
def MatchUnit.holdsBound (u : MatchUnit) (d : Fin 64) : Bool :=
  u.store.any fun e => e.domain == d && e.body.isBound

/-- The completion of a DOMAIN_OPEN or DOMAIN_CLOSE (R8, R9, R167). -/
def domainCompletion (kind : RequestKind) (d : Fin 64) (cookie : BitVec 64) (notify : Bool) (status : Status) :
    Completion :=
  { kind := kind.code, status, domain := domainByte d, cookie, notify }

/-- A CLOSING domain without a BOUND entry becomes CLOSED and its pending close completes OK (R10). -/
def State.testClose (s : State) (d : Fin 64) : State × List Completion :=
  match s.domain d with
  | { state := .closing, close := some c } =>
    if s.matching.holdsBound d then (s, [])
    else
      (s.setDomain d { state := .closed, close := none },
        [domainCompletion .domainClose d c.cookie c.notify .ok])
  | _ => (s, [])

/-- A BOUND entry leaves its queue and returns to the pool; its receive completes (R24). R10 is not applied yet. -/
def State.finishBound (s : State) (id : Nat) (status : Status) (detail : BitVec 8) : State × List Completion :=
  match s.matching.find id with
  | some { domain := d, body := .bound r m _, .. } =>
    let u := s.matching.returnEntry id
    (s.setMatching { u with pullQueue := u.pullQueue.filter (· != id) }, [boundCompletion d r m status detail])
  | _ => (s, [])

/-- A BOUND entry ends: its receive completes, it returns to the pool, and R10 is applied (R24). -/
def State.endBound (s : State) (id : Nat) (status : Status) (detail : BitVec 8) : State × List Completion :=
  match s.matching.find id with
  | some { domain := d, body := .bound _ _ _, .. } =>
    let done := s.finishBound id status detail
    let close := done.1.testClose d
    (close.1, done.2 ++ close.2)
  | _ => (s, [])

/-- A BOUND entry whose data has all been delivered ends OK or TRUNCATED (R24). -/
def State.deliver (s : State) (id : Nat) : State × List Completion :=
  match s.matching.find id with
  | some { body := .bound r m _, .. } => s.endBound id (deliveredStatus r m) 0
  | _ => (s, [])

/-! ### Held sets (R68) -/

/-- A HELD entry's reference leaves its peer's held set (R68). -/
def State.dropHeld (s : State) (n : Node) (id : Nat) : State :=
  s.setPeer n { s.peer n with held := (s.peer n).held.filter (·.entry != id) }

/-- A HELD or READY entry leaves its list and returns to the pool, and the unexpected count falls (R1, R25, R27). -/
def State.removeUnexpected (s : State) (e : Entry) : State :=
  match e.body with
  | .held m =>
    let u := s.matching.returnEntry e.id
    (s.setMatching { u with unexpected := u.unexpected - 1 }).dropHeld m.source e.id
  | .ready _ =>
    let u := (s.matching.returnEntry e.id).leaveUml e.domain e.id
    s.setMatching { u with unexpected := u.unexpected - 1 }
  | _ => s

/-- The context that is still filling the entry's spill buffer (R9, R94). -/
def Entry.fillingContext (e : Entry) : Option (Fin 64) :=
  match e.body with
  | .held m | .ready m => m.context
  | _ => none

/-- A HELD or READY entry is discarded: its context freed, its spill buffer returned (R9, R28, R94). -/
def State.discard (s : State) (cause : ReleaseCause) (e : Entry) : State × List Completion :=
  match e.body with
  | .held m | .ready m =>
    let s := match m.context with
      | some c => s.freeContext c
      | none => s
    (s.removeUnexpected e, spillReleased e.domain m cause)
  | _ => (s, [])

/-- Discard by number, when the entry is still there. -/
def State.discardId (s : State) (cause : ReleaseCause) (id : Nat) : State × List Completion :=
  match s.matching.find id with
  | some e => s.discard cause e
  | none => (s, [])

/-! ### Receive requests (R12, R13, R15, R16) -/

/-- The receive part of a POST_RECV (1.1.1). -/
def Request.toReceive (r : Request) (order : Nat) : Receive where
  cookie := r.cookie
  selector := r.peer
  tag := r.tag
  mask := r.mask
  segments := r.segments
  total := r.total
  notify := r.notify
  order := order

/-- A POST_RECV (R11 to R13). -/
def State.takePostRecv (s : State) (r : Request) : State × List Completion :=
  let d := r.domain
  let order := s.matching.nextPosting
  if (s.domain d).state != .opened then
    (s, [unboundCompletion d r.cookie r.peer r.tag r.notify .domainNotOpen])
  else
    match s.matching.searchUml d r.peer r.tag r.mask with
    | some (id, m) =>
      let u := s.matching.leaveUml d id
      let s := s.setMatching { u with unexpected := u.unexpected - 1, nextPosting := order + 1 }
      (s.bind id (r.toReceive order) m, [])
    | none =>
      if s.matching.free = 0 then
        (s.resourceRefused .pool r.peer 0 d, [unboundCompletion d r.cookie r.peer r.tag r.notify .noEntry])
      else
        let deadline := if r.hasDeadline then some (s.host.tick + r.deadline.setWidth 64) else none
        let id := s.matching.nextEntry
        let u := (s.matching.takeEntry d (.posted (r.toReceive order) deadline)).joinPrl d id
        ((s.setMatching { u with nextPosting := order + 1 }).resourceTaken .pool, [])

/-- Of two entries with receives, the one posted first. -/
def olderReceive (best : Option (Nat × Entry)) (e : Entry) : Option (Nat × Entry) :=
  match e.body.receive with
  | none => best
  | some r =>
    match best with
    | some (order, _) => if r.order < order then some (r.order, e) else best
    | none => some (r.order, e)

/-- The oldest POSTED or BOUND entry of a domain with this cookie (R15). -/
def MatchUnit.findReceive (u : MatchUnit) (d : Fin 64) (cookie : BitVec 64) : Option Entry :=
  ((u.store.filter fun e => e.domain == d &&
      (match e.body.receive with
       | some r => r.cookie == cookie
       | none => false)).foldl olderReceive none).map (·.2)

/-- A POSTED entry leaves PRL, its deadline is discarded, its receive completes and it returns to the pool
(R9, R15, R17). -/
def State.endPosted (s : State) (id : Nat) (status : Status) : State × List Completion :=
  match s.matching.find id with
  | some { domain := d, body := .posted r _, .. } =>
    (s.setMatching ((s.matching.returnEntry id).leavePrl d id),
      [unboundCompletion d r.cookie r.selector r.tag r.notify status])
  | _ => (s, [])

/-- The completion of a CANCEL_RECV (R15, R167). -/
def cancelRecvCompletion (r : Request) (status : Status) : Completion :=
  { kind := RequestKind.cancelRecv.code, status, domain := domainByte r.domain, cookie := r.cookie, notify := r.notify }

/-- A CANCEL_RECV (R15). -/
def State.takeCancelRecv (s : State) (r : Request) : State × List Completion :=
  match s.matching.findReceive r.domain r.target with
  | none => (s, [cancelRecvCompletion r .notFound])
  | some { id, body := .posted _ _, .. } =>
    let p := s.endPosted id .cancelled
    (p.1, p.2 ++ [cancelRecvCompletion r .ok])
  | some _ => (s, [cancelRecvCompletion r .tooLate])

/-- A PROBE (R11, R16, R167). The domain of one that completes OK is the request's (log entry 31). -/
def State.probe (s : State) (r : Request) : Completion :=
  let c : Completion :=
    { kind := RequestKind.probe.code, domain := domainByte r.domain, cookie := r.cookie, notify := r.notify }
  if (s.domain r.domain).state != .opened then { c with status := .domainNotOpen }
  else
    match s.matching.searchUml r.domain r.peer r.tag r.mask with
    | some (_, m) =>
      { c with rendezvous := m.mode == .rendezvous, peer := m.source.setWidth 16, tag := m.tag, length := m.length }
    | none => { c with status := .notFound }

/-! ### Domains (R8, R9) -/

/-- A DOMAIN_OPEN (R8). -/
def State.takeDomainOpen (s : State) (r : Request) : State × List Completion :=
  let done (status : Status) := [domainCompletion .domainOpen r.domain r.cookie r.notify status]
  match (s.domain r.domain).state with
  | .closed => (s.setDomain r.domain { state := .opened, close := none }, done .ok)
  | .opened => (s, done .alreadyOpen)
  | .closing => (s, done .domainBusy)

/-- Of two HELD messages the first comes no later: by source node, and within one source in sequence order
(R9, step 3). -/
def heldBefore (a b : Message) : Bool :=
  decide (a.source.toNat < b.source.toNat) || (a.source == b.source && decide ((b.seq - a.seq).toNat < 32768))

/-- Insertion by that order. -/
def insertBySource (x : Nat × Message) : List (Nat × Message) → List (Nat × Message)
  | [] => [x]
  | y :: ys => if heldBefore x.2 y.2 then x :: y :: ys else y :: insertBySource x ys

/-- The number and message of a HELD entry. -/
def Entry.heldMessage (e : Entry) : Option (Nat × Message) :=
  match e.body with
  | .held m => some (e.id, m)
  | _ => none

/-- The HELD entries among these, by source node and then in sequence order (R9, R28). They are found in the Match
Store: a peer restart has emptied its record's references when its report is still to be taken (R52, log entry 9). -/
def heldInOrder (es : List Entry) : List Nat := ((es.filterMap Entry.heldMessage).foldr insertBySource []).map (·.1)

/-- The HELD entries of a domain in the order of R9, step 3. -/
def State.heldOfDomain (s : State) (d : Fin 64) : List Nat := heldInOrder (s.matching.store.filter (·.domain == d))

/-- The contexts a close of the domain would free (R9, R94). -/
def State.closeContexts (s : State) (d : Fin 64) : List (Fin 64) :=
  s.matching.store.filterMap fun e => if e.domain == d then e.fillingContext else none

/-- A DOMAIN_CLOSE (R9, R10). That its three steps are done when the close is taken, so that contexts are FREE and held
references gone while completions still wait, is the model's choice (log entry 39). -/
def State.takeDomainClose (s : State) (r : Request) : State × List Completion :=
  let d := r.domain
  match (s.domain d).state with
  | .closed => (s, [domainCompletion .domainClose d r.cookie r.notify .domainNotOpen])
  | .closing => (s, [domainCompletion .domainClose d r.cookie r.notify .domainBusy])
  | .opened =>
    let s := s.setDomain d { state := .closing, close := some { cookie := r.cookie, notify := r.notify } }
    let posted := s.collect (tabGet s.matching.prl d) fun id s => s.endPosted id .cancelled
    let ready := posted.1.collect (tabGet posted.1.matching.uml d) fun id s => s.discardId .closed id
    let held := ready.1.collect (ready.1.heldOfDomain d) fun id s => s.discardId .closed id
    let close := held.1.testClose d
    (close.1, posted.2 ++ ready.2 ++ held.2 ++ close.2)

/-! ### Release (R23) -/

/-- The served entry of a context changes (R78). -/
def State.serveEntry (s : State) (c : Fin 64) (id : Nat) : State :=
  match (s.context c).body with
  | .filling g tag d bitmap => s.setContextBody c (.filling { g with entry := id } tag d bitmap)
  | .pulling g n next => s.setContextBody c (.pulling { g with entry := id } n next)
  | .free => s

/-- A release of a HELD entry: it binds the first matching POSTED entry, or becomes READY (R23). -/
def State.release (s : State) (id : Nat) : State :=
  match s.matching.find id with
  | some { domain := d, body := .held m, .. } =>
    match s.matching.searchPrl d m with
    | some (rid, r) =>
      let u := (s.matching.returnEntry id).leavePrl d rid
      let s := s.setMatching { u with unexpected := u.unexpected - 1 }
      let s := match m.context with
        | some c => s.serveEntry c rid
        | none => s
      s.bind rid r m
    | none => s.setMatching ((s.matching.setBody id (.ready m)).joinUml d id)
  | _ => s

/-! ### RETRACT and deadlines (R17, R27) -/

/-- A HELD or READY RENDEZVOUS entry with this source, epoch and sequence (R27). -/
def MatchUnit.findAnnounced (u : MatchUnit) (source : Node) (epoch : BitVec 8) (seq : Seq) : Option Entry :=
  u.store.find? fun e =>
    match e.body with
    | .held m | .ready m => m.mode == .rendezvous && m.source == source && m.epoch == epoch && m.seq == seq
    | _ => false

/-- The deadline of a POSTED entry (R17). -/
def MatchUnit.deadline (u : MatchUnit) (id : Nat) : Option Tick :=
  match u.find id with
  | some { body := .posted _ deadline, .. } => deadline
  | _ => none

/-! ### Peer restarts (R28, R95) -/

/-- The BOUND entries a restart of the node ends: those whose data is incomplete (R28). -/
def endedByRestart (p : Node) (e : Entry) : Bool :=
  match e.body with
  | .bound _ m wait => m.source == p && wait != .awaitDrain && wait != .draining
  | _ => false

/-- The READY entries a restart of the node discards (R28). -/
def discardedByRestart (p : Node) (e : Entry) : Bool :=
  match e.body with
  | .ready m =>
    m.source == p &&
      (match m.spill with
       | some q => q.fill == .filling
       | none => true)
  | _ => false

/-- The posting order of an entry's receive. -/
def Entry.postingOrder (e : Entry) : Nat :=
  match e.body.receive with
  | some r => r.order
  | none => 0

/-- Insertion by posting order. -/
def insertByPosting (e : Entry) : List Entry → List Entry
  | [] => [e]
  | x :: xs => if e.postingOrder ≤ x.postingOrder then e :: x :: xs else x :: insertByPosting e xs

/-- The entries a restart ends, in posting order (R28). -/
def MatchUnit.restartedReceives (u : MatchUnit) (p : Node) : List Entry :=
  (u.store.filter (endedByRestart p)).foldr insertByPosting []

/-- The READY entries a restart discards, by domain and in UML order (R28). -/
def MatchUnit.restartedReady (u : MatchUnit) (p : Node) : List Nat :=
  (u.uml.toList.flatMap id).filter fun id =>
    match u.find id with
    | some e => discardedByRestart p e
    | none => false

/-- The contexts in use whose source is the node (R95). -/
def State.contextsOf (s : State) (p : Node) : List (Fin 64) :=
  (List.finRange 64).filter fun c =>
    match (s.context c).body with
    | .free => false
    | .filling g _ _ _ | .pulling g _ _ => g.source == p

/-- Contexts freed together: one pull service claim follows when any was (R95). -/
def State.freeContexts (s : State) (cs : List (Fin 64)) : State :=
  let s' := cs.foldl State.releaseContext s
  if cs.isEmpty then s' else s'.claimPullService

/-- A HELD or READY entry is discarded by a restart: its spill buffer is returned, and its context has been freed by
the Reassembly Unit itself (R28, R95). -/
def State.discardRestarted (s : State) (id : Nat) : State × List Completion :=
  match s.matching.find id with
  | some e =>
    match e.body with
    | .held m | .ready m => (s.removeUnexpected e, spillReleased e.domain m .restarted)
    | _ => (s, [])
  | none => (s, [])

/-- The HELD entries of a source in sequence order (R28). -/
def State.heldOfSource (s : State) (p : Node) : List Nat :=
  heldInOrder (s.matching.store.filter fun e => e.body.message.any (·.source == p))

/-- A peer restart at the Reassembly Unit and the Match Unit, which take its report together (log entry 9): the node's
contexts are freed, incomplete receives end PEER_RESTART, HELD entries and incomplete READY entries are discarded, and
closes are tested (R28, R95). That all of it is done before the completions are given is the model's choice (log entry
39). -/
def State.restartMatch (s : State) (p : Node) : State × List Completion :=
  let ended := s.matching.restartedReceives p
  let s := s.freeContexts (s.contextsOf p)
  let receives := s.collect ended fun e s => s.finishBound e.id .peerRestart 0
  let helds := receives.1.collect (receives.1.heldOfSource p) fun id s => s.discardRestarted id
  let readies := helds.1.collect (helds.1.matching.restartedReady p) fun id s => s.discardRestarted id
  let closes := readies.1.collect (List.finRange 64) fun d s =>
    if ended.any (·.domain == d) then s.testClose d else (s, [])
  (closes.1, receives.2 ++ helds.2 ++ readies.2 ++ closes.2)

end Sys2Proof.Machine
end

