-- ==== Sys2Proof/Config.lean ====
section
/-! DEFINITION. What the manual leaves free, as constants without a body: no proof can see their values, so
a claim that holds here holds whichever way the part chooses. -/

namespace Sys2Proof.Config

/-- Both lanes ask the Send Unit for a data frame, and an entry would answer each, the same one or two: R114, R123 and
R150 take their asks one at a time and fix no order. `true` lets lane A ask first. The argument numbers the choice (log
entry 9). -/
opaque laneAAsksFirst : Nat → Bool

/-- A peer restart reported to the Match Unit and to the Send Unit, both with completions to give: 11.9 lets
them reach the Completion Ring in either order. `true` lets the Send Unit's report be taken first. The argument
numbers the choice (log entry 9). -/
opaque sendUnitRestartsFirst : Nat → Bool

end Sys2Proof.Config
end

