-- ==== Sys2Proof/Machine/Lanes.lean ====
section
/-! DEFINITION. Lane operations (Chapter 7): state changes and their events, faults, the choice of a lane for a
frame, the part of egress that does not ask the Send Unit, and the freeing of ingress buffers. -/

namespace Sys2Proof.Machine

/-- The number of a lane in an event (R140). -/
def laneNumber : Lane → BitVec 16
  | .a => 0
  | .b => 1

/-- A LANE_STATE event (R140). -/
def laneEvent (l : Lane) (state : LaneState) (cause : BitVec 32) (seq : Seq) : Event :=
  { kind := .laneState, node := laneNumber l, seq, paramA := BitVec.ofNat 32 state.code, paramB := cause }

/-- The lane is UP. -/
def State.laneUp (s : State) (l : Lane) : Bool := (s.lane l).state == .up

/-- The lane's receiver takes frames: UP, or TRAINING with the TRAIN sent (R144). -/
def LaneRecord.receiving (r : LaneRecord) : Bool :=
  r.state == .up || (r.state == .training && r.trainSent)

/-- The lane enters TRAINING: training timer armed for 64 ticks, TRAIN sent flag cleared (R139). -/
def State.enterTraining (s : State) (l : Lane) (cause : BitVec 32) : State :=
  let s := s.setLane l { s.lane l with
    state := .training, trainSent := false, trainingTimer := some (s.host.tick + 64), holdOffTimer := none }
  s.giveEvent (laneEvent l .training cause 0)

/-- The act at the head of a waiting claim is a placing on the lane. -/
def waitsOnLane (l : Lane) : List Act → Bool
  | .placeOn l' _ :: _ => l' == l
  | _ => false

/-- A producer waiting for room on the lane goes on as if its frame had been placed (R143, R145). -/
def dropWaiting (l : Lane) (acts : List Act) : List Act :=
  if waitsOnLane l acts then .dropped :: acts.tail else acts

/-- The frames waiting to be placed on the lane are dropped from their claims. -/
def State.dropProducers (s : State) (l : Lane) : State :=
  s.setClaims { s.claims with waiting := s.claims.waiting.map (dropWaiting l) }

/-- The frame being sent is cut off: the switch receives it as a frame that fails its CRC (R154). -/
def State.cutFrame (s : State) (l : Lane) : State :=
  if (s.lane l).transmitter.isSome then s.emit (.cut l) else s

/-- The control frames a fault drops: those in the queue, those of waiting producers, and one being sent
(R143, R154). -/
def State.faultDrops (s : State) (l : Lane) : Nat :=
  (s.lane l).queue.length + (s.claims.waiting.filter (waitsOnLane l)).length
    + (match (s.lane l).transmitter with
       | some t => if t.source == .control then 1 else 0
       | none => 0)

/-- The lane enters FAULT (R143). -/
def State.enterFault (s : State) (l : Lane) (cause : BitVec 32) : State :=
  let s := s.count 13 (s.faultDrops l)
  let s := (s.cutFrame l).dropProducers l
  let s := s.setLane l { s.lane l with
    state := .fault, holdOffTimer := some (s.host.tick + 16), trainingTimer := none, queue := [],
    transmitter := none, creditLimit := 0, credits := 0, owed := 0 }
  s.giveEvent (laneEvent l .fault cause 0)

/-- The lane enters DOWN as the part enters FAILED: cleared, nothing counted, no event (R139, R145). -/
def State.enterDown (s : State) (l : Lane) : State :=
  let s := (s.cutFrame l).dropProducers l
  s.setLane l { s.lane l with
    state := .down, holdOffTimer := none, trainingTimer := none, queue := [], transmitter := none,
    creditLimit := 0, credits := 0, owed := 0 }

/-- The lane a response frame, ANNOUNCE or RETRACT goes to: its nominal lane if UP, else the other if UP
(R152, R153). -/
def State.chooseLane (s : State) (nominal : Lane) : Option Lane :=
  if s.laneUp nominal then some nominal
  else if s.laneUp nominal.other then some nominal.other
  else none

/-- How many frames a Control Frame Queue holds at most (R151). -/
def queueSize : Nat := 32

/-- The number of ingress buffers of a lane (R138). -/
def ingressSize : Nat := 16

/-- The TRAIN or CREDIT a lane makes itself (R38, R141, R147). -/
def State.laneFrame (s : State) (kind : FrameKind) (count : Nat) : Frame :=
  { kind, dest := s.setup.nodeId, total := BitVec.ofNat 32 count }

/-- The egress decision as far as it does not need the Send Unit: the TRAIN (R141), a CREDIT (R147), or the head of
the Control Frame Queue (R149). -/
def State.decideOwn (s : State) (l : Lane) : State :=
  let r := s.lane l
  if r.transmitter.isSome then s
  else
    match r.state with
    | .training =>
      if r.trainSent || !r.ingress.isEmpty then s
      else s.setLane l { r with
        transmitter := some { source := .train, frame := s.laneFrame .train ingressSize } }
    | .up =>
      if 0 < r.owed then
        s.setLane l { r with
          owed := 0, transmitter := some { source := .credit, frame := s.laneFrame .credit r.owed } }
      else
        match r.queue with
        | [] => s
        | f :: rest =>
          if 0 < r.credits then
            s.setLane l { r with
              queue := rest, credits := r.credits - 1,
              transmitter := some { source := .control, frame := f } }
          else s
    | _ => s

/-- A buffer that becomes FREE is owed to the switch while the lane receives (R146). -/
def LaneRecord.oweBuffer (r : LaneRecord) : LaneRecord :=
  if r.receiving then { r with owed := r.owed + 1 } else r

end Sys2Proof.Machine
end

