-- ==== Sys2Proof/Machine/Sending.lean ====
section
/-! DEFINITION. Send Unit operations (Chapter 6): preparing and handing out pieces, egress, allocation, ending an
entry, answers, cancels, read returns, timers and peer restarts. -/

namespace Sys2Proof.Machine

/-! ### Frames of this part -/

/-- A frame to a node with the part's own node id and epoch (R37, note 1). -/
def State.frameTo (s : State) (kind : FrameKind) (dest : Node) : Frame :=
  { kind, dest, source := s.setup.nodeId, epoch := s.setup.epoch }

/-- The number of an entry in a sender handle (R45). -/
def SendEntry.handle (e : SendEntry) (i : Fin 32) : BitVec 16 := makeHandle i e.generation

/-- An ABORT toward a receiver, naming its context (R125, R126). -/
def State.abortToReceiver (s : State) (dest : Node) (reason : BitVec 8) (ref : BitVec 16) : Frame :=
  { s.frameTo .abort dest with flags := 0b0010, reason, contextRef := ref }

/-! ### Entries -/

/-- Live states (R120). -/
def SendState.live : SendState → Bool
  | .eagerSending | .waitPull | .streaming | .waitAck | .retracting => true
  | .free | .retiring => false

/-- The length an entry sends: the message length, or the pull length while it streams (R122). -/
def SendEntry.sendLength (e : SendEntry) : Nat :=
  if e.state == .streaming then e.pullLength else e.length

/-- Some read of the piece has not come back. -/
def Piece.outstanding : Piece → Bool
  | .reading _ parts => parts.any (·.data.isNone)
  | _ => false

/-- The expiry tick of a response timer armed now (R131). -/
def State.responseExpiryTick (s : State) : Tick := s.host.tick + BitVec.ofNat 64 s.setup.responseLimit

/-- The indexes of the Send Table, lowest first. -/
def sendIndexes : List (Fin 32) := List.finRange 32

/-- The live entries toward a node. -/
def State.liveToward (s : State) (d : Node) : List (Fin 32) :=
  sendIndexes.filter fun i => (s.sendEntry i).state.live && (s.sendEntry i).dest == d

/-- Reads of the address ranges, one for each segment the piece touches (R122), with their numbers. That they are issued in
ascending order of message byte is the model's choice (log entry 35). -/
def State.issueReads (s : State) : List (BitVec 64 × Nat) → State × List ReadPart
  | [] => (s, [])
  | (address, length) :: rest =>
    let part : ReadPart := { tag := s.nextTag, length, data := none }
    let p := (s.hostRead address length).issueReads rest
    (p.1, part :: p.2)

/-- The next piece of an entry is prepared when it has none and more is to be sent (R122). -/
def State.preparePiece (s : State) (i : Fin 32) : State :=
  let e := s.sendEntry i
  if e.piece == .noPiece && decide (e.nextOffset < e.sendLength) then
    let n := min 256 (e.sendLength - e.nextOffset)
    let p := s.issueReads (gather e.segments e.nextOffset n)
    p.1.setSendEntry i { e with piece := .reading e.nextOffset p.2, nextOffset := e.nextOffset + n }
  else s

/-! ### Supplying data frames (R123, R124, R149, R150) -/

/-- The DATA frame of a ready piece (R123). -/
def State.dataFrame (s : State) (i : Fin 32) (e : SendEntry) (offset : Nat) (bytes : Bytes) : Frame :=
  { s.frameTo .data e.dest with
    seq := e.seq, windowBase := (s.sendHalf e.dest).sendBase, tag := e.tag, domain := domainByte e.domain,
    payloadLength := BitVec.ofNat 16 bytes.length, total := BitVec.ofNat 32 e.length,
    offset := BitVec.ofNat 32 offset, handle := e.handle i, payload := bytes }

/-- The PDATA frame of a ready piece (R124). -/
def State.pdataFrame (s : State) (e : SendEntry) (offset : Nat) (bytes : Bytes) : Frame :=
  { s.frameTo .pdata e.dest with
    payloadLength := BitVec.ofNat 16 bytes.length, total := BitVec.ofNat 32 e.pullLength,
    offset := BitVec.ofNat 32 offset, contextRef := e.contextRef, payload := bytes }

/-- An entry the lane asks: EAGER_SENDING, or STREAMING pinned to it (R150). -/
def SendEntry.candidate (e : SendEntry) (l : Lane) : Bool :=
  e.state == .eagerSending || (e.state == .streaming && e.pinnedLane == l)

/-- The entry's piece is ready (R122). -/
def SendEntry.pieceReady (e : SendEntry) : Bool :=
  match e.piece with
  | .ready _ _ => true
  | _ => false

/-- The first entry from the lane's round-robin position, one full turn, that answers with a frame (R150). -/
def State.findReady (s : State) (l : Lane) : Option (Fin 32) :=
  (sendIndexes.map fun k => (s.lane l).roundRobin + k).find? fun i =>
    (s.sendEntry i).candidate l && (s.sendEntry i).pieceReady

/-- A lane may ask for a data frame: UP, a credit, transmitter idle, nothing of its own to send (R150), and the Send
Unit takes claims (R114). An ask that finds it held is not kept, and is made anew when the lane next decides,
which may be ahead of claims that wait for the Send Unit (log entry 36). -/
def State.mayAsk (s : State) (l : Lane) : Bool :=
  let r := s.lane l
  r.state == .up && r.transmitter.isNone && decide (r.owed = 0) && r.queue.isEmpty && decide (0 < r.credits)
    && s.unheld .sendUnit

/-- The entry hands its ready piece to the lane: the timer is re-armed, and the next piece is prepared or, after the
last, the entry takes state WAIT_ACK (R123, R124). -/
def State.takePiece (s : State) (i : Fin 32) : State :=
  let e := s.sendEntry i
  let left := { e with piece := .noPiece, timer := some s.responseExpiryTick }
  if e.nextOffset < e.sendLength then (s.setSendEntry i left).preparePiece i
  else s.setSendEntry i { left with state := .waitAck }

/-- A lane takes the frame an entry answers with (R123, R124, R148, R150). -/
def State.sendData (s : State) (l : Lane) (i : Fin 32) : State :=
  let e := s.sendEntry i
  match e.piece with
  | .ready offset bytes =>
    let frame := if e.state == .streaming then s.pdataFrame e offset bytes else s.dataFrame i e offset bytes
    let r := s.lane l
    let s := s.setLane l { r with
      credits := r.credits - 1, roundRobin := i + 1, transmitter := some { source := .data, frame } }
    s.takePiece i
  | _ => s

/-- A lane's ask (R150). -/
def State.askData (s : State) (l : Lane) : State :=
  if s.mayAsk l then
    match s.findReady l with
    | some i => s.sendData l i
    | none => s
  else s

/-- Both lanes ask, and an entry would answer each: R114 leaves open which ask is taken first (log entry 9). -/
def State.asksMeet (s : State) : Bool :=
  s.mayAsk .a && s.mayAsk .b && (s.findReady .a).isSome && (s.findReady .b).isSome

/-- The next free choice has been made. -/
def State.chosen (s : State) : State := s.setClaims { s.claims with choices := s.claims.choices + 1 }

/-- The egress arbiters of both lanes decide for an idle transmitter (R149). -/
def State.egress (s : State) : State :=
  let s := (s.decideOwn .a).decideOwn .b
  if s.asksMeet then
    if Config.laneAAsksFirst s.claims.choices then (s.chosen.askData .a).askData .b
    else (s.chosen.askData .b).askData .a
  else (s.askData .a).askData .b

/-! ### Ending an entry (R118, R130) -/

/-- `send_base` after an entry toward `d` is resolved: the live sequence nearest to the old base, or `next_send_seq`
when none is live (R118). -/
def nearestSeq (base : Seq) (fallback : Seq) : List Seq → Seq
  | [] => fallback
  | q :: qs => qs.foldl (fun best x => if (x - base).toNat < (best - base).toNat then x else best) q

/-- The entry is resolved: FREE, or RETIRING while a read is outstanding; its window position is given back and the
allocation claims of R119 are made (R118, R130). -/
def State.resolve (s : State) (i : Fin 32) : State :=
  let e := s.sendEntry i
  let s := s.setSendEntry i { e with
    state := if e.piece.outstanding then .retiring else .free
    piece := if e.piece.outstanding then e.piece else .noPiece
    timer := none
    cancel := none }
  let h := s.sendHalf e.dest
  let base := nearestSeq h.sendBase h.nextSendSeq ((s.liveToward e.dest).map fun j => (s.sendEntry j).seq)
  let s := s.setSendHalf e.dest { h with inFlight := h.inFlight - 1, sendBase := base }
  let s := if e.piece.outstanding then s else s.claimAllocation
  if base = h.sendBase then s else s.claimAllocation

/-- The completion of a SEND that had an entry (R130). -/
def SendEntry.completion (e : SendEntry) (status : Status) (detail : BitVec 8) (delivered : Nat)
    (unconfirmed : Bool) : Completion :=
  { kind := RequestKind.send.code, status, detail, unconfirmed, rendezvous := e.mode == .rendezvous,
    domain := domainByte e.domain, peer := e.dest.setWidth 16, cookie := e.cookie, tag := e.tag,
    delivered, length := e.length, notify := e.notify }

/-- The completion of a CANCEL_SEND that found a SEND (R132). -/
def cancelSendCompletion (cookie : BitVec 64) (notify : Bool) (status : Status) (dest : Node) (domain : Fin 64)
    (tag : BitVec 32) : Completion :=
  { kind := RequestKind.cancelSend.code, status, domain := domainByte domain, peer := dest.setWidth 16, cookie, tag,
    notify }

/-- The completion of the cancel pending on an entry, if there is one (R128, R129, R131, R134). -/
def SendEntry.cancelCompletion (e : SendEntry) (status : Status) : List Completion :=
  match e.cancel with
  | some c => [cancelSendCompletion c.cookie c.notify status e.dest e.domain e.tag]
  | none => []

/-- The claim ends the entry: its SEND completes, then a pending cancel, and it is resolved (R118, R134). -/
def State.endSend (s : State) (i : Fin 32) (status : Status) (detail : BitVec 8) (delivered : Nat)
    (unconfirmed : Bool) (cancel : Status) : State × List Completion :=
  let e := s.sendEntry i
  (s.resolve i, e.completion status detail delivered unconfirmed :: e.cancelCompletion cancel)

/-! ### SEND and CANCEL_SEND (R31, R115, R132, R133) -/

/-- How many entries the Send Backlog holds at most (R115). -/
def backlogSize : Nat := 64

/-- The mode of a SEND (R31). -/
def State.sendMode (s : State) (r : Request) : Mode :=
  if r.total ≤ s.setup.eagerLimit && !r.forceRdv then .eager else .rendezvous

/-- A valid SEND joins the backlog, or completes NO_RESOURCE when it holds 64 entries (R115). -/
def State.takeSend (s : State) (r : Request) : State × List Completion :=
  let u := s.sending
  if backlogSize ≤ u.backlog.length then
    (s, [{ kind := RequestKind.send.code, status := .noResource, rendezvous := s.sendMode r == .rendezvous,
           domain := domainByte r.domain, peer := r.peer, cookie := r.cookie, tag := r.tag, length := r.total,
           notify := r.notify }])
  else
    let b : Backlogged :=
      { cookie := r.cookie, dest := r.peer.setWidth 8, domain := r.domain, tag := r.tag, segments := r.segments,
        length := r.total, notify := r.notify, mode := s.sendMode r, order := u.nextOrder }
    ((s.setSending { u with backlog := u.backlog ++ [b], nextOrder := u.nextOrder + 1 }).claimAllocation, [])

/-- What a CANCEL_SEND finds (R132). -/
inductive FoundSend where
  | backlog (b : Backlogged)
  | entry (i : Fin 32)
  deriving DecidableEq, Repr

/-- The order of a SEND found. -/
def State.foundOrder (s : State) : FoundSend → Nat
  | .backlog b => b.order
  | .entry i => (s.sendEntry i).order

/-- The oldest of a list of SENDs found. -/
def State.oldestSend (s : State) : List FoundSend → Option FoundSend
  | [] => none
  | x :: xs => some (xs.foldl (fun best y => if s.foundOrder y < s.foundOrder best then y else best) x)

/-- The oldest backlog or live entry whose cookie is the target (R132). -/
def State.findSend (s : State) (target : BitVec 64) : Option FoundSend :=
  s.oldestSend
    (((s.sending.backlog.filter (·.cookie == target)).map .backlog)
      ++ ((sendIndexes.filter fun i => (s.sendEntry i).state.live && (s.sendEntry i).cookie == target).map .entry))

/-- The RETRACT of an entry (R133). -/
def State.retractFrame (s : State) (i : Fin 32) (e : SendEntry) : Frame :=
  { s.frameTo .retract e.dest with seq := e.seq, handle := e.handle i }

/-- The RETRACT of a WAIT_PULL entry has been placed: the entry is RETRACTING with its pending cancel, and its response
timer runs from now (R131, R133). -/
def State.startRetracting (s : State) (i : Fin 32) (cancel : PendingCancel) : State :=
  let e := s.sendEntry i
  if e.state == .waitPull then
    s.setSendEntry i { e with state := .retracting, timer := some s.responseExpiryTick, cancel := some cancel }
  else s

/-- A CANCEL_SEND is taken (R132, R133): the new state, and the acts that follow. -/
def State.takeCancelSend (s : State) (r : Request) : State × List Act :=
  match s.findSend r.target with
  | none =>
    (s, [.give { kind := RequestKind.cancelSend.code, status := .notFound, cookie := r.cookie, notify := r.notify }])
  | some (.backlog b) =>
    let u := s.sending
    (s.setSending { u with backlog := u.backlog.filter (·.order != b.order) },
      [.give { kind := RequestKind.send.code, status := .cancelled, rendezvous := b.mode == .rendezvous,
               domain := domainByte b.domain, peer := b.dest.setWidth 16, cookie := b.cookie, tag := b.tag,
               length := b.length, notify := b.notify },
       .give (cancelSendCompletion r.cookie r.notify .ok b.dest b.domain b.tag)])
  | some (.entry i) =>
    let e := s.sendEntry i
    if e.state == .waitPull then
      (s, [.place e.announceLane (s.retractFrame i e), .retracting i { cookie := r.cookie, notify := r.notify }])
    else (s, [.give (cancelSendCompletion r.cookie r.notify .tooLate e.dest e.domain e.tag)])

/-! ### Allocation (R119, R121) -/

/-- The destination has room in its send window (R117). -/
def State.sendRoom (s : State) (d : Node) : Bool :=
  decide (((s.sendHalf d).nextSendSeq - (s.sendHalf d).sendBase).toNat < 8)

/-- The ANNOUNCE of an entry (R121). -/
def State.announceFrame (s : State) (i : Fin 32) (e : SendEntry) : Frame :=
  { s.frameTo .announce e.dest with
    seq := e.seq, windowBase := (s.sendHalf e.dest).sendBase, tag := e.tag, domain := domainByte e.domain,
    total := BitVec.ofNat 32 e.length, handle := e.handle i }

/-- The lane an ANNOUNCE's sequence number names: A when even, B when odd (R153). -/
def parityLane (q : Seq) : Lane := if q.getLsbD 0 then .b else .a

/-- The entry a backlog entry becomes: its fields, the raised generation and the sequence number (R119, R120). -/
def Backlogged.toEntry (b : Backlogged) (old : SendEntry) (seq : Seq) : SendEntry :=
  { SendEntry.reset with
    state := if b.mode == .eager then .eagerSending else .waitPull
    generation := old.generation + 1
    cookie := b.cookie, domain := b.domain, tag := b.tag, notify := b.notify, dest := b.dest, seq,
    mode := b.mode, length := b.length, segments := b.segments, order := b.order }

/-- The oldest backlog entry whose destination has room, given the lowest-numbered FREE Send Table entry (R119). -/
def State.allocateTo (s : State) (b : Backlogged) (i : Fin 32) : State × List Act :=
  let h := s.sendHalf b.dest
  let u := s.sending
  let s := s.setSending { u with backlog := u.backlog.filter (·.order != b.order) }
  let s := s.setSendHalf b.dest { h with nextSendSeq := h.nextSendSeq + 1, inFlight := h.inFlight + 1 }
  let e := b.toEntry (s.sendEntry i) h.nextSendSeq
  let s := s.claimAllocation
  if b.mode == .eager then
    let e := { e with
      timer := some s.responseExpiryTick, piece := if b.length = 0 then .ready 0 [] else .noPiece }
    ((s.setSendEntry i e).preparePiece i, [])
  else
    let nominal := parityLane e.seq
    (s.setSendEntry i { e with announceLane := (s.chooseLane nominal).getD nominal },
      [.place nominal (s.announceFrame i e)])

/-- An allocation claim is taken (R119). -/
def State.takeAllocation (s : State) : State × List Act :=
  if s.host.partState == .online then
    match s.sending.backlog.find? (fun b => s.sendRoom b.dest),
        sendIndexes.find? (fun i => (s.sendEntry i).state == .free) with
    | some b, some i => s.allocateTo b i
    | _, _ => (s, [])
  else (s, [])

/-! ### Answers (R126 to R129) -/

/-- The live entry an answer frame names (R45, R126). -/
def State.namedEntry (s : State) (f : Frame) : Option (Fin 32) :=
  let i := handleIndex f.handle
  let e := s.sendEntry i
  if e.state.live && e.generation == handleGeneration f.handle && e.seq == f.seq && e.dest == f.source then some i
  else none

/-- Completions as acts, in order. -/
def gives (cs : List Completion) : List Act := cs.map .give

/-- A claim whose completions are given next. -/
def thenGives (p : State × List Completion) : State × List Act := (p.1, gives p.2)

/-- Dropped as stale: counter 6 rises (R126). -/
def State.stale (s : State) : State := s.count 6 1

/-- The entry takes a PULL and streams (R127). -/
def State.startStream (s : State) (i : Fin 32) (l : Lane) (f : Frame) : State :=
  let e := s.sendEntry i
  (s.setSendEntry i { e with
    state := .streaming, pullLength := f.total.toNat, contextRef := f.contextRef, pinnedLane := l, nextOffset := 0,
    piece := .noPiece, timer := some s.responseExpiryTick, cancel := none }).preparePiece i

/-- The answer that ends a live entry has been placed: its SEND completes with nothing delivered, a pending cancel
completes TOO_LATE after it, and the entry is resolved (R118, R125, R127). -/
def State.takeEndSend (s : State) (i : Fin 32) (status : Status) (detail : BitVec 8) : State × List Completion :=
  if (s.sendEntry i).state.live then s.endSend i status detail 0 false .tooLate else (s, [])

/-- A PULL at the Send Unit (R126, R127). That counter 6 rises when a PULL that is not served is taken, before its ABORT
is placed, is the model's choice (log entry 41). -/
def State.takePull (s : State) (l : Lane) (f : Frame) : State × List Act :=
  match s.namedEntry f with
  | none => (s.stale, [.place l (s.abortToReceiver f.source 2 f.contextRef)])
  | some i =>
    let e := s.sendEntry i
    if e.length < f.total.toNat then
      ((s.count 4 1).giveEvent
        { kind := .protocolError, node := f.source.setWidth 16, seq := f.seq, paramA := 3, paramB := f.total }, [])
    else if e.state == .waitPull || e.state == .retracting then
      if s.host.partState == .online then
        (s.startStream i l f, gives (e.cancelCompletion .tooLate))
      else (s, [.place l (s.abortToReceiver f.source 3 f.contextRef), .endSend i .aborted 3])
    else (s.stale, [.place l (s.abortToReceiver f.source 2 f.contextRef)])

/-- An ACK at the Send Unit (R126, R128). -/
def State.takeAck (s : State) (f : Frame) : State × List Act :=
  match s.namedEntry f with
  | none => (s.stale, [])
  | some i =>
    let e := s.sendEntry i
    match e.state, f.retracted with
    | .waitAck, false =>
      let n := if e.mode == .eager then e.length else e.pullLength
      thenGives (s.endSend i (if n < e.length then .truncated else .ok) 0 n false .tooLate)
    | .waitPull, false | .retracting, false =>
      thenGives (s.endSend i (if e.length = 0 then .ok else .truncated) 0 0 false .tooLate)
    | .retracting, true =>
      thenGives (s.endSend i .cancelled 0 0 false .ok)
    | _, _ => (s.stale, [])

/-- A REFUSE at the Send Unit (R126, R129). -/
def State.takeRefuse (s : State) (f : Frame) : State × List Act :=
  match s.namedEntry f with
  | none => (s.stale, [])
  | some i =>
    thenGives (s.endSend i .refused f.reason 0 false .tooLate)

/-- An ABORT toward the sender at the Send Unit (R126, R129). -/
def State.takeAbort (s : State) (f : Frame) : State × List Act :=
  match s.namedEntry f with
  | none => (s.stale, [])
  | some i =>
    thenGives (s.endSend i .remoteAbort f.reason 0 false .tooLate)

/-- An answer frame at the Send Unit, by its kind (R39). -/
def State.takeAnswer (s : State) (l : Lane) (f : Frame) : State × List Act :=
  match f.kind with
  | .pull => s.takePull l f
  | .ack => s.takeAck f
  | .refuse => s.takeRefuse f
  | _ => s.takeAbort f

/-! ### Read returns (R122, R125, R130) -/

/-- The entry with this read outstanding. -/
def Piece.awaits (p : Piece) (tag : Nat) : Bool :=
  match p with
  | .reading _ parts => parts.any fun q => q.tag == tag && q.data.isNone
  | _ => false

/-- The entry whose piece awaits this read. -/
def State.readEntry (s : State) (tag : Nat) : Option (Fin 32) :=
  sendIndexes.find? fun i => (s.sendEntry i).piece.awaits tag

/-- How many bytes the read was for. -/
def Piece.readLength (p : Piece) (tag : Nat) : Option Nat :=
  match p with
  | .reading _ parts => (parts.find? (·.tag == tag)).map (·.length)
  | _ => none

/-- The piece with one read come back; ready when all have (R122). -/
def Piece.filled (p : Piece) (tag : Nat) (bytes : Bytes) : Piece :=
  match p with
  | .reading offset parts =>
    let parts := parts.map fun q => if q.tag == tag then { q with data := some bytes } else q
    if parts.all (·.data.isSome) then .ready offset (parts.flatMap fun q => q.data.getD [])
    else .reading offset parts
  | _ => p

/-- A RETIRING entry becomes FREE, with an allocation claim, when no read of it is outstanding (R130). -/
def State.retire (s : State) (i : Fin 32) (piece : Piece) : State :=
  let e := s.sendEntry i
  if piece.outstanding then s.setSendEntry i { e with piece }
  else (s.setSendEntry i { e with piece := .noPiece, state := .free }).claimAllocation

/-- A send buffer read returns (R122, R130). -/
def State.takeReadReturn (s : State) (tag : Nat) (bytes : Bytes) : State :=
  match s.readEntry tag with
  | none => s
  | some i =>
    let e := s.sendEntry i
    let piece := e.piece.filled tag bytes
    if e.state == .retiring then s.retire i piece else s.setSendEntry i { e with piece }

/-- A send buffer read is answered with an error (R125, R130). -/
def State.takeReadError (s : State) (tag : Nat) : State × List Act :=
  match s.readEntry tag with
  | none => (s, [])
  | some i =>
    let e := s.sendEntry i
    let piece := e.piece.filled tag []
    if e.state == .retiring then (s.retire i piece, [])
    else
      (s.setSendEntry i { e with piece },
        (if e.state == .streaming then [.place e.pinnedLane (s.abortToReceiver e.dest 4 e.contextRef)] else [])
          ++ [.endSend i .hostReadError 0])

/-! ### Response timers and restarts (R131, R136) -/

/-- An entry's response timer stands at this expiry tick in this generation (R131). -/
def State.responseArmed (s : State) (i : Fin 32) (generation : BitVec 11) (expiry : Tick) : Bool :=
  let e := s.sendEntry i
  e.state.live && e.generation == generation && e.timer == some expiry

/-- A response timer expiry that takes effect (R131). That counter 12 rises here, before the TIMEOUT completion is given,
is the model's choice (log entry 41). -/
def State.takeResponseExpiry (s : State) (i : Fin 32) : State × List Completion :=
  if (s.sendEntry i).state == .retracting then s.endSend i .cancelled 0 0 true .ok
  else (s.count 12 1).endSend i .timeout 0 0 false .tooLate

/-- Insertion into a list of entries ordered by distance of their sequence from a base (R136). -/
def State.insertBySeq (s : State) (base : Seq) (i : Fin 32) : List (Fin 32) → List (Fin 32)
  | [] => [i]
  | j :: js =>
    if ((s.sendEntry i).seq - base).toNat ≤ ((s.sendEntry j).seq - base).toNat then i :: j :: js
    else j :: s.insertBySeq base i js

/-- The live entries toward a node in order of sequence, by distance from `send_base` (R136). -/
def State.liveInOrder (s : State) (d : Node) : List (Fin 32) :=
  (s.liveToward d).foldr (s.insertBySeq (s.sendHalf d).sendBase) []

/-- The Send Unit's part of a peer restart of node `p` (R136). -/
def State.restartSend (s : State) (p : Node) : State × List Completion :=
  let q := s.collect (s.liveInOrder p) fun i s => s.endSend i .peerRestart 0 0 false .tooLate
  let h := q.1.sendHalf p
  ((q.1.setSendHalf p { h with sendBase := h.nextSendSeq, inFlight := 0 }).claimAllocation, q.2)

end Sys2Proof.Machine
end

