-- ==== Sys2Proof/Machine/Contexts.lean ====
section
/-! DEFINITION. Reassembly Unit operations (Chapter 4): allocation, fragments, pulled data, ends of contexts and
their reports to the Match Unit, and the service of the Pull Queue. -/

namespace Sys2Proof.Machine

/-! ### Context Table (R72, R74) -/

/-- What a context in use gathers. -/
def ContextBody.gather : ContextBody → Option Gather
  | .free => none
  | .filling g _ _ _ | .pulling g _ _ => some g

/-- The context is FILLING or PULLING. -/
def ContextBody.inUse (b : ContextBody) : Bool := b.gather.isSome

/-- The lowest-numbered FREE context (R74). -/
def State.freeContextId (s : State) : Option (Fin 64) :=
  (List.finRange 64).find? fun c => !(s.context c).body.inUse

/-- A context is allocated: its generation rises by one, its body is filled, and it joins the tail of the age list
(R74). -/
def State.allocateContext (s : State) (c : Fin 64) (body : ContextBody) : State :=
  s.setContexts { s.contexts with
    table := tabSet s.contexts.table c { generation := (s.context c).generation + 1, body }
    age := s.contexts.age ++ [c] }

/-- The context moves to the tail of the age list with a new body (R81, R88, R89). -/
def State.renewContext (s : State) (c : Fin 64) (body : ContextBody) : State :=
  let s := s.setContextBody c body
  s.setContexts { s.contexts with age := s.contexts.age.filter (· != c) ++ [c] }

/-- The body of the context an EAGER opening asks for (R75). -/
def State.fillingBody (s : State) (l : Lane) (f : Frame) (target : Target) (limit entry : Nat) : ContextBody :=
  .filling
    { source := f.source, epoch := f.epoch, seq := f.seq, handle := f.handle, length := f.total.toNat, target,
      writeLimit := limit, entry, truncated := false, lastActivity := s.host.tick, answerLane := l }
    f.tag (domainIndex f.domain) 0

/-- An EAGER opening asks for a context; an answer of none FREE is a refusal of the context resource (R75, R106). -/
def State.askContext (s : State) (l : Lane) (f : Frame) (target : Target) (limit entry : Nat) :
    State × Option (Fin 64) :=
  match s.freeContextId with
  | some c =>
    (((s.allocateContext c (s.fillingBody l f target limit entry)).hold (.context c)).resourceTaken .context, some c)
  | none => (s.resourceRefused .context (f.source.setWidth 16) f.seq (domainIndex f.domain), none)

/-- The FILLING context of a message (R59). -/
def State.findFilling (s : State) (source : Node) (epoch : BitVec 8) (seq : Seq) : Option (Fin 64) :=
  (List.finRange 64).find? fun c =>
    match (s.context c).body with
    | .filling g _ _ _ => g.source == source && g.epoch == epoch && g.seq == seq
    | _ => false

/-- The PULLING context a reference names (R46, R86). -/
def State.livePull (s : State) (f : Frame) : Option (Fin 64 × Gather × Nat × Nat) :=
  let c := refContext f.contextRef
  match (s.context c).body with
  | .pulling g pullLength next =>
    if (s.context c).generation == refGeneration f.contextRef && g.source == f.source then
      some (c, g, pullLength, next)
    else none
  | _ => none

/-! ### Frames of a context (R76, R82, R87, R90, R92) -/

/-- An answer about the message of a context, from its sequence and sender handle. -/
def State.answerFrame (s : State) (kind : FrameKind) (g : Gather) (reason : BitVec 8) : Frame :=
  { s.frameTo kind g.source with seq := g.seq, handle := g.handle, reason }

/-- The ACK of a complete message (R82, R88). -/
def State.ackFrame (s : State) (g : Gather) : Frame := s.answerFrame .ack g 0

/-- The REFUSE(INCOMPLETE) of an expired FILLING context (R90, R91). -/
def State.incompleteFrame (s : State) (g : Gather) : Frame := s.answerFrame .refuse g 6

/-- An ABORT toward the sender: DATA_LOST at a gap (R87), EXPIRED at an expiry (R92). -/
def State.abortToSender (s : State) (g : Gather) (reason : BitVec 8) : Frame := s.answerFrame .abort g reason

/-! ### Writes (R81, R84) -/

/-- The bytes of a payload that lie below the write limit (R81). -/
def Gather.accepted (g : Gather) (offset : Nat) (payload : Bytes) : Bytes := payload.take (g.writeLimit - offset)

/-- The writes of a payload (R84). -/
def Gather.writes (g : Gather) (offset : Nat) (payload : Bytes) : List (BitVec 64 × Bytes) :=
  let bytes := g.accepted offset payload
  match g.target with
  | .segments list => scatter list offset bytes
  | .spill address => if bytes.isEmpty then [] else [(address + BitVec.ofNat 64 offset, bytes)]

/-- The context after accepting a frame: last activity, answer lane, and the truncated flag when a byte was
discarded (R81, R88). -/
def Gather.renewed (g : Gather) (now : Tick) (l : Lane) (offset : Nat) (payload : Bytes) : Gather :=
  { g with
    lastActivity := now, answerLane := l
    truncated := g.truncated || decide ((g.accepted offset payload).length < payload.length) }

/-! ### Fragments (R79 to R83) -/

/-- The first field in which a frame differs from its FILLING context, as R79 codes it. -/
def mismatch (f : Frame) (g : Gather) (tag : BitVec 32) (domain : Fin 64) : Option (BitVec 32) :=
  if f.tag != tag then some 1
  else if domainIndex f.domain != domain then some 2
  else if f.total.toNat != g.length then some 3
  else if f.kind != .data then some 4
  else if f.handle != g.handle then some 5
  else none

/-- A FRAGMENT_MISMATCH: counter 4 rises and a PROTOCOL_ERROR event is given (R79, R87, R201). -/
def State.fragmentMismatch (s : State) (source : Node) (seq : Seq) (field : BitVec 32) : State :=
  (s.count 4 1).giveEvent
    { kind := .protocolError, node := source.setWidth 16, seq, paramA := 2, paramB := field }

/-- The number of pieces of an EAGER message (R80). -/
def pieceCount (length : Nat) : Nat := if length = 0 then 1 else (length + 255) / 256

/-- The bitmap of a message all of whose pieces have been taken (R81). -/
def fullBitmap (length : Nat) : BitVec 64 := BitVec.ofNat 64 (2 ^ pieceCount length - 1)

/-- A frame at a FILLING context (R79 to R83): the new state, and the acts that follow before the claim on the
context ends. -/
def State.takeFragment (s : State) (c : Fin 64) (l : Lane) (f : Frame) : State × List Act :=
  match (s.context c).body with
  | .filling g tag domain bitmap =>
    match mismatch f g tag domain with
    | some field => (s.fragmentMismatch f.source f.seq field, [])
    | none =>
      let offset := f.offset.toNat
      if bitmap.getLsbD (offset / 256) then (s.count 8 1, [])
      else
        let bits := bitmap ||| BitVec.twoPow 64 (offset / 256)
        let g' := g.renewed s.host.tick l offset f.payload
        let s := (s.hostWrites (g.writes offset f.payload)).renewContext c (.filling g' tag domain bits)
        if bits == fullBitmap g.length then (s, [.place l (s.ackFrame g'), .report c .complete]) else (s, [])
  | _ => (s, [])

/-! ### Pulled data and aborts (R86 to R88, R93) -/

/-- A PDATA frame at the Reassembly Unit (R86 to R88): the new state, and the context with the acts of a claim that
ends it. -/
def State.takePdata (s : State) (l : Lane) (f : Frame) : State × Option (Fin 64 × List Act) :=
  match s.livePull f with
  | none => (s.stale, none)
  | some (c, g, pullLength, next) =>
    let offset := f.offset.toNat
    if f.total.toNat != pullLength then (s.fragmentMismatch f.source g.seq 3, none)
    else if offset < next then (s.count 8 1, none)
    else if next < offset then (s, some (c, [.place l (s.abortToSender g 1), .report c .gap]))
    else
      let g' := g.renewed s.host.tick l offset f.payload
      let next' := next + f.payloadLength.toNat
      let s := (s.hostWrites (g.writes offset f.payload)).renewContext c (.pulling g' pullLength next')
      if next' == pullLength then (s, some (c, [.place l (s.ackFrame g'), .report c .complete])) else (s, none)

/-- An ABORT toward the receiver at the Reassembly Unit (R93). -/
def State.takeAbortReceive (s : State) (f : Frame) : State × Option (Fin 64 × List Act) :=
  match s.livePull f with
  | none => (s.stale, none)
  | some (c, _, _, _) => (s, some (c, [.report c (.aborted f.reason)]))

/-! ### Expiry (R89 to R92) -/

/-- The context is in use in this generation with this last activity (R89). -/
def State.expires (s : State) (c : Fin 64) (generation : BitVec 8) (last : Tick) : Bool :=
  match (s.context c).body.gather with
  | some g => (s.context c).generation == generation && g.lastActivity == last
  | none => false

/-- The tick at which a context expires (R89). -/
def State.contextDue (s : State) (c : Fin 64) : Option Tick :=
  (s.context c).body.gather.map fun g => g.lastActivity + BitVec.ofNat 64 s.setup.ageLimit

/-- An expiry that takes effect (R89 to R92). That counter 10 rises here, before the REFUSE or ABORT is placed, is the
model's choice (log entry 41). -/
def State.takeContextExpiry (s : State) (c : Fin 64) : State × List Act :=
  match (s.context c).body with
  | .free => (s, [])
  | .filling g _ _ _ => (s.count 10 1, [.place g.answerLane (s.incompleteFrame g), .report c .expired])
  | .pulling g _ _ => (s.count 10 1, [.place g.answerLane (s.abortToSender g 5), .report c .expired])

/-! ### Reports to the Match Unit (R24, R25) -/

/-- A message whose spill buffer is complete: its context id is removed (R24, R25). -/
def Message.filled (m : Message) : Message :=
  { m with spill := m.spill.map fun p => { p with fill := .complete }, context := none }

/-- A context reports its spill buffer complete (R24, R25, R83). -/
def State.fillComplete (s : State) (id : Nat) : State :=
  match s.matching.find id with
  | some { body := .held m, .. } => s.setMatching (s.matching.setBody id (.held m.filled))
  | some { body := .ready m, .. } => s.setMatching (s.matching.setBody id (.ready m.filled))
  | some { body := .bound r m _, .. } =>
    (s.setMatching (s.matching.setBody id (.bound r m.filled .awaitDrain))).joinQueue id .awaitDrain
  | _ => s

/-- A context reports its served entry's data lost, by expiry or gap: a BOUND entry ends DATA_LOST, a HELD or READY
one is removed and its spill buffer returned (R24, R25, R91). -/
def State.dataLost (s : State) (id : Nat) : State × List Completion :=
  match s.matching.find id with
  | some e =>
    match e.body with
    | .held m | .ready m => (s.removeUnexpected e, spillReleased e.domain m .expired)
    | .bound _ _ _ => s.endBound id .dataLost 0
    | .posted _ _ => (s, [])
  | none => (s, [])

/-- A context's report of how it ended, about the entry it serves when the report is taken (R24, R25). An expired HELD
entry leaves its held set here, before its SPILL_RELEASED is given: the model's choice (log entry 39). -/
def State.takeReport (s : State) (c : Fin 64) (how : ContextEnd) : State × List Completion :=
  match (s.context c).body.gather with
  | none => (s, [])
  | some g =>
    match how with
    | .complete =>
      match g.target with
      | .segments _ => s.deliver g.entry
      | .spill _ => (s.fillComplete g.entry, [])
    | .expired | .gap => s.dataLost g.entry
    | .aborted reason => s.endBound g.entry .remoteAbort reason

/-! ### The Pull Queue (R76, R77) -/

/-- An entry leaves the Pull Queue with a new body (R24). -/
def MatchUnit.leavePullQueue (u : MatchUnit) (id : Nat) : MatchUnit :=
  { u with pullQueue := u.pullQueue.filter (· != id) }

/-- The body of the context a Pull Queue head is given (R76). -/
def State.pullingBody (s : State) (id : Nat) (r : Receive) (m : Message) : ContextBody :=
  .pulling
    { source := m.source, epoch := m.epoch, seq := m.seq, handle := m.handle, length := m.length,
      target := .segments r.segments, writeLimit := r.total, entry := id, truncated := false,
      lastActivity := s.host.tick, answerLane := m.lane }
    (min m.length r.total) 0

/-- The PULL of a message given a context (R76). -/
def State.pullFrame (s : State) (c : Fin 64) (r : Receive) (m : Message) : Frame :=
  { s.frameTo .pull m.source with
    seq := m.seq, total := BitVec.ofNat 32 (min m.length r.total), handle := m.handle,
    contextRef := makeRef c (s.context c).generation }

/-- The ACK of a zero-length pull (R77). -/
def State.zeroPullAck (s : State) (m : Message) : Frame :=
  { s.frameTo .ack m.source with seq := m.seq, handle := m.handle }

/-- The Pull Queue head is given a context (R76). The allocation is a finished claim on the context at once, also while its
PULL waits for room (R73, log entry 33). -/
def State.startPull (s : State) (id : Nat) (c : Fin 64) (r : Receive) (m : Message) : State × List Act :=
  let s := s.allocateContext c (s.pullingBody id r m)
  let u := s.matching.setBody id (.bound r { m with context := some c } .pulling)
  let s := ((s.setMatching (u.leavePullQueue id)).resourceTaken .context).claimPullService
  (s, [.place m.lane (s.pullFrame c r m)])

/-- A Pull Queue head whose pull length is 0 is served without a context (R77). -/
def State.endZeroPull (s : State) (id : Nat) (m : Message) : State × List Act :=
  let p := s.endBound id .ok 0
  (p.1.claimPullService, .place m.lane (s.zeroPullAck m) :: gives p.2)

/-- A pull service claim (R76, R77). -/
def State.takePullService (s : State) : State × List Act :=
  if s.host.partState != .online then (s, [])
  else
    match s.matching.pullQueue with
    | [] => (s, [])
    | id :: _ =>
      match s.matching.find id with
      | some { body := .bound r m _, .. } =>
        if min m.length r.total = 0 then s.endZeroPull id m
        else
          match s.freeContextId with
          | some c => s.startPull id c r m
          | none => (s, [])
      | _ => (s, [])

end Sys2Proof.Machine
end

