-- ==== Sys2Proof/Machine/Peers.lean ====
section
/-! DEFINITION. Peer Table operations (Chapter 3): the epoch check, adoption, moving `next_seq`, releases,
classification, openings with the Match Unit's answers (R18 to R22), and the gap timer. -/

namespace Sys2Proof.Machine

/-! ### Epochs (R42, R51, R52) -/

/-- How an epoch stands to a recorded one (R42). -/
inductive EpochOrder where
  | equal
  | newer
  | older
  deriving DecidableEq, Repr

/-- The comparison of epoch `b` with epoch `a` (R42). -/
def compareEpoch (a b : BitVec 8) : EpochOrder :=
  if b - a = 0 then .equal else if (b - a).toNat ≤ 127 then .newer else .older

/-- The record after a peer restart with this epoch (R52). -/
def PeerRecord.restarted (epoch : BitVec 8) : PeerRecord := { PeerRecord.reset with epoch := some epoch }

/-- The PEER_RESTART event (R52). -/
def restartEvent (node : Node) (old new : BitVec 8) : Event :=
  { kind := .peerRestart, node := node.setWidth 16, paramA := old.setWidth 32, paramB := new.setWidth 32 }

/-- The reports of a restart as acts: one to the Match Unit and the Reassembly Unit, one to the Send Unit, in the order
the free choice gives (R52, log entry 9). That the second follows the first, and the frame goes on after both, is the model's
choice (log entry 38). -/
def State.restartActs (s : State) (node : Node) : List Act :=
  if Config.sendUnitRestartsFirst s.claims.choices then [.restartSend node, .restartMatch node]
  else [.restartMatch node, .restartSend node]

/-- A peer restart: the record is cleared, the event given, and the reports made (R52). -/
def State.restartPeer (s : State) (node : Node) (old new : BitVec 8) : State × List Act :=
  let acts := s.restartActs node
  let s := (s.setPeer node (PeerRecord.restarted new)).giveEvent (restartEvent node old new)
  (s.chosen, acts)

/-- A frame at the record of its source (R50, R51): dropped as stale, or on to dispatch with the record held. -/
def State.takeEpoch (s : State) (l : Lane) (f : Frame) : State × List Act :=
  let p := s.peer f.source
  match p.epoch with
  | none =>
    ((s.setPeer f.source { p with epoch := some f.epoch }).hold (.record f.source), [.dispatch l f])
  | some old =>
    match compareEpoch old f.epoch with
    | .equal => (s.hold (.record f.source), [.dispatch l f])
    | .newer =>
      let p := s.restartPeer f.source old f.epoch
      (p.1.hold (.record f.source), p.2 ++ [.dispatch l f])
    | .older => (s.stale, [.freeIngress l])

/-! ### Moving `next_seq` (R49, R66 to R68) -/

/-- `next_seq` moves one step and the bitmap with it (R49). -/
def PeerRecord.advance (p : PeerRecord) : PeerRecord := { p with nextSeq := p.nextSeq + 1, ahead := p.ahead >>> 1 }

/-- Whether the position next after the current one has been opened: bit 1 (R49). -/
def PeerRecord.nextOpened (p : PeerRecord) : Bool := p.ahead.getLsbD 0

/-- The held reference of the current position (R67). -/
def PeerRecord.heldHere (p : PeerRecord) : Option HeldRef := p.held.find? (·.seq == p.nextSeq)

/-- The context whose served entry a release of this entry changes: that of a HELD entry still FILLING, which the context
serves, whose message a POSTED entry takes over (R23, R78). -/
def State.rebinds (s : State) (id : Nat) : Option (Fin 64) :=
  match s.matching.find id with
  | some { domain := d, body := .held m, .. } =>
    if (s.matching.searchPrl d m).isSome then m.context.filter fun c => (s.context c).body.gather.any (·.entry == id)
    else none
  | _ => none

/-- Releasing the current position can be done: when it hands on a HELD entry, the Match Unit takes claims (R7), and so
does a context whose served entry changes (R73). -/
def State.releaseReady (s : State) (node : Node) (opened : Bool) : Bool :=
  match opened, (s.peer node).heldHere with
  | true, some ref => s.unheld .matchUnit && (s.rebinds ref.entry).all fun c => s.unheld (.context c)
  | _, _ => true

/-- The current position, opened, is released: its HELD entry, if it has one, goes to the Match Unit (R67). -/
def State.releasePosition (s : State) (node : Node) : State :=
  let p := s.peer node
  match p.heldHere with
  | some ref => (s.setPeer node { p with held := p.held.filter (·.seq != p.nextSeq) }).release ref.entry
  | none => s

/-- The current position is passed: released when it was opened; then `next_seq` moves. -/
def State.passPosition (s : State) (node : Node) (opened : Bool) : State :=
  let s := if opened then s.releasePosition node else s
  s.setPeer node (s.peer node).advance

/-- One position of the release chain (R66): the position at `next_seq` was opened or not. -/
def State.takeChain (s : State) (node : Node) (opened : Bool) : State × List Act :=
  if opened then
    let next := (s.peer node).nextOpened
    (s.passPosition node true, [.chain node next])
  else (s, [])

/-! ### Adoption and the window base advance (R55 to R58) -/

/-- A message frame that finds its record UNKNOWN gives it its starting point (R55). -/
def State.adopt (s : State) (f : Frame) : State :=
  let p := s.peer f.source
  if p.known then s
  else s.setPeer f.source { p with known := true, nextSeq := f.windowBase, ahead := 0, held := [], gapTimer := none }

/-- The positions from `next_seq` up to the window base, 0 when the base is not ahead (R56). -/
def State.baseAhead (s : State) (f : Frame) : Nat :=
  let d := (f.windowBase - (s.peer f.source).nextSeq).toNat
  if d ≤ 32767 then d else 0

/-- A SEQUENCE_GAP event (R58). -/
def gapEvent (node : Node) (first : Seq) (skipped cause : Nat) : Event :=
  { kind := .sequenceGap, node := node.setWidth 16, seq := first, paramA := BitVec.ofNat 32 skipped,
    paramB := BitVec.ofNat 32 cause }

/-- One stage of a window base advance (R56 to R58): a position released, a position or a run of positions skipped,
or the end at the window base, where the release chain, the event and the context lookup follow. `first` is the
first position skipped; `opened` says whether the position at `next_seq` was opened. Counter 11 takes the whole count at the
window base, before the chain (R197; log entry 37). -/
def State.takeWalk (s : State) (l : Lane) (f : Frame) (opened : Bool) (first : Seq) (skipped : Nat) :
    State × List Act :=
  let p := s.peer f.source
  let d := s.baseAhead f
  if d = 0 then
    if skipped = 0 then (s, [.lookup l f false])
    else
      (s.count 11 skipped,
        [.chain f.source opened, .gapEvent f.source first skipped 1, .lookup l f true])
  else if opened then
    (s.passPosition f.source true, [.walk l f p.nextOpened first skipped])
  else
    let first := if skipped = 0 then p.nextSeq else first
    if p.ahead = 0 then
      (s.setPeer f.source { p with nextSeq := f.windowBase }, [.walk l f false first (skipped + d)])
    else (s.passPosition f.source false, [.walk l f p.nextOpened first (skipped + 1)])

/-! ### The end of a claim on the record (R69) -/

/-- The expiry tick of a gap timer armed now (R69). -/
def State.gapExpiryTick (s : State) : Tick := s.host.tick + BitVec.ofNat 64 s.setup.gapLimit

/-- The gap timer at the end of a claim that has advanced `next_seq`: re-armed while bits are set, else disarmed
(R69). -/
def State.settleGap (s : State) (node : Node) : State :=
  let p := s.peer node
  s.setPeer node { p with gapTimer := if p.ahead = 0 then none else some s.gapExpiryTick }

/-- The claim on the record ends (R50, R69). -/
def State.endRecord (s : State) (node : Node) (advanced : Bool) : State :=
  (if advanced then s.settleGap node else s).unhold (.record node)

/-! ### Lookup and classification (R59 to R61) -/

/-- A frame dropped as stale by classification (R61). -/
def State.dropStale (s : State) (l : Lane) (f : Frame) (advanced : Bool) : State × List Act :=
  (s.stale, [.endRecord f.source advanced, .freeIngress l])

/-- The distance of a frame's sequence from `next_seq` (R43, R60). -/
def State.distance (s : State) (f : Frame) : Nat := (f.seq - (s.peer f.source).nextSeq).toNat

/-- A frame beyond the window (R61). -/
def State.dropBeyond (s : State) (l : Lane) (f : Frame) (advanced : Bool) : State × List Act :=
  ((s.count 7 1).giveEvent
      { kind := .protocolError, node := f.source.setWidth 16, seq := f.seq, paramA := 1,
        paramB := (s.peer f.source).nextSeq.setWidth 32 },
    [.endRecord f.source advanced, .freeIngress l])

/-- A message frame that finds no context is classified (R60). -/
def State.classify (s : State) (l : Lane) (f : Frame) (advanced : Bool) : State × List Act :=
  let d := s.distance f
  if d = 0 then (s, [.opening l f false advanced])
  else if d ≤ 7 then
    if (s.peer f.source).ahead.getLsbD (d - 1) then s.dropStale l f advanced
    else (s, [.opening l f true advanced])
  else if d ≤ 32767 then s.dropBeyond l f advanced
  else s.dropStale l f advanced

/-- The FILLING context of a frame's message (R59). -/
def State.lookupContext (s : State) (f : Frame) : Option (Fin 64) := s.findFilling f.source f.epoch f.seq

/-- The context lookup (R59): the frame goes to its FILLING context, or is classified. -/
def State.takeLookup (s : State) (l : Lane) (f : Frame) (advanced : Bool) : State × List Act :=
  match s.lookupContext f with
  | some c => (s.hold (.context c), [.endRecord f.source advanced, .fragment c l f])
  | none => s.classify l f advanced

/-! ### Openings at the Match Unit (R18 to R22) -/

/-- The message part of an opening (R18, R62); the handle has meaning for RENDEZVOUS alone. -/
def openedMessage (l : Lane) (f : Frame) : Message where
  source := f.source
  epoch := f.epoch
  seq := f.seq
  tag := f.tag
  length := f.total.toNat
  mode := if f.kind == .announce then .rendezvous else .eager
  handle := if f.kind == .announce then f.handle else 0
  spill := none
  context := none
  lane := l

/-- A held reference at its place in sequence order (R68). -/
def insertHeld (next : Seq) (ref : HeldRef) : List HeldRef → List HeldRef
  | [] => [ref]
  | x :: xs =>
    if (ref.seq - next).toNat ≤ (x.seq - next).toNat then ref :: x :: xs else x :: insertHeld next ref xs

/-- A reference joins the held set of its source (R21, R68). -/
def State.holdEntry (s : State) (node : Node) (ref : HeldRef) : State :=
  let p := s.peer node
  s.setPeer node { p with held := insertHeld p.nextSeq ref p.held }

/-- An unmatched opening is stored in the entry it has taken: READY at the tail of UML, or HELD in its source's held
set (R20, R21). -/
def State.store (s : State) (d : Fin 64) (m : Message) (ahead : Bool) : State :=
  let id := s.matching.nextEntry
  if ahead then
    (s.setMatching (s.matching.addEntry d (.held m))).holdEntry m.source { seq := m.seq, entry := id }
  else s.setMatching ((s.matching.addEntry d (.ready m)).joinUml d id)

/-- The entry an opening has taken goes back as it is refused (R20). -/
def State.giveBack (s : State) : State := s.setMatching s.matching.unreserve

/-- The Match Unit accepts an opening that matches a POSTED entry, or refuses it NO_CONTEXT (R19). -/
def State.openMatched (s : State) (l : Lane) (f : Frame) (id : Nat) (r : Receive) : State × OpenAnswer :=
  let d := domainIndex f.domain
  let m := openedMessage l f
  match m.mode with
  | .rendezvous => ((s.setMatching (s.matching.leavePrl d id)).bind id r m, .accepted none)
  | .eager =>
    let p := s.askContext l f (.segments r.segments) r.total id
    match p.2 with
    | none => (p.1, .refused 3)
    | some c =>
      ((p.1.setMatching (p.1.matching.leavePrl d id)).bind id r { m with context := some c }, .accepted (some c))

/-- Step 4 of R20 with the loaned spill buffer: a context, or the buffer back to the head of the cache (R103). -/
def State.openSpilled (s : State) (l : Lane) (f : Frame) (ahead : Bool) (e : SpillEntry) : State × OpenAnswer :=
  let s := s.resourceTaken .spill
  let p := s.askContext l f (.spill e.address) s.setup.spillSize s.matching.nextEntry
  match p.2 with
  | none => ((p.1.setSpill { p.1.spill with entries := e :: p.1.spill.entries, loan := none }).giveBack, .refused 3)
  | some c =>
    let m :=
      { openedMessage l f with
        spill := some { token := e.token, address := e.address, fill := .filling }, context := some c }
    ((p.1.setSpill { p.1.spill with loan := none }).store (domainIndex f.domain) m ahead, .accepted (some c))

/-- The Spill Ring holds posted entries (R98). -/
def State.spillPosted (s : State) : Bool := decide (0 < occupancy s.ring.srTail s.ring.spillHead)

/-- A fetch starts: the slot of the spill head is read (R98). -/
def State.startFetch (s : State) : State :=
  let tag := s.nextTag
  let s := s.hostRead (slotAddress s.setup.spillBase s.ring.spillHead s.setup.spillRingSize 16) 16
  s.setSpill { s.spill with fetch := .reading tag }

/-- A refusal of the opening for want of a spill buffer (R102, R106). -/
def State.refuseSpill (s : State) (f : Frame) : State × OpenAnswer :=
  ((s.resourceRefused .spill (f.source.setWidth 16) f.seq (domainIndex f.domain)).giveBack, .refused 1)

/-- A spill claim reaches the Spill Cache (R102): answered, or `none` while it waits. -/
def State.claimSpill (s : State) (l : Lane) (f : Frame) (ahead : Bool) : State × Option OpenAnswer :=
  match s.spill.entries with
  | e :: rest =>
    let p := (s.setSpill { s.spill with entries := rest, loan := some e }).openSpilled l f ahead e
    (p.1, some p.2)
  | [] =>
    if s.spill.fetch != .noFetch then (s, none)
    else if s.spillPosted then (s.startFetch, none)
    else
      let p := s.refuseSpill f
      (p.1, some p.2)

/-- A spill claim that has waited goes on (R102): with the entry on loan to it, refused because the part has
stopped, or once more by what the cache, the fetch and the ring hold. -/
def State.resumeSpill (s : State) (l : Lane) (f : Frame) (ahead : Bool) : State × Option OpenAnswer :=
  match s.spill.loan with
  | some e =>
    let p := s.openSpilled l f ahead e
    (p.1, some p.2)
  | none => if s.host.partState != .online then (s.giveBack, some (.refused 5)) else s.claimSpill l f ahead

/-- A spill claim that waits can go on: an entry is on loan to it, or the fetch it waits for has ended (R102). -/
def State.spillAnswered (s : State) : Bool := s.spill.loan.isSome || s.spill.fetch == .noFetch

/-- An opening that matches no POSTED entry, at steps 1 to 3 of R20. -/
def State.openUnmatched (s : State) (l : Lane) (f : Frame) (ahead : Bool) : State × Option OpenAnswer :=
  let d := domainIndex f.domain
  let m := openedMessage l f
  if m.mode == .eager && decide (s.setup.spillSize < m.length) then (s, some (.refused 7))
  else if s.setup.unexpectedLimit ≤ s.matching.unexpected || s.matching.free = 0 then
    (s.resourceRefused .pool (f.source.setWidth 16) f.seq d, some (.refused 2))
  else
    let s := (s.setMatching s.matching.reserve).resourceTaken .pool
    match m.mode with
    | .rendezvous => (s.store d m ahead, some (.accepted none))
    | .eager => s.claimSpill l f ahead

/-- An opening at the Match Unit (R18 to R21): answered, or `none` while its spill claim waits. -/
def State.takeOpening (s : State) (l : Lane) (f : Frame) (ahead : Bool) : State × Option OpenAnswer :=
  let d := domainIndex f.domain
  if s.host.partState != .online then (s, some (.refused 5))
  else if (s.domain d).state != .opened then (s, some (.refused 4))
  else if ahead then s.openUnmatched l f true
  else
    match s.matching.searchPrl d (openedMessage l f) with
    | some (id, r) =>
      let p := s.openMatched l f id r
      (p.1, some p.2)
    | none => s.openUnmatched l f false

/-- The act that follows an opening's stage: the answer, or the wait for the Spill Cache. -/
def openNext (l : Lane) (f : Frame) (ahead advanced : Bool) : Option OpenAnswer → List Act
  | some a => [.answered l f ahead advanced a]
  | none => [.spillWait l f ahead advanced]

/-! ### After the answer (R62 to R65) -/

/-- The REFUSE of a refused opening (R65). -/
def State.refuseFrame (s : State) (f : Frame) (reason : BitVec 8) : Frame :=
  { s.frameTo .refuse f.source with seq := f.seq, handle := f.handle, reason }

/-- The position of an opening counts as opened when the Match Unit has answered: at the current position `next_seq`
advances (R63); at an ahead position its bit is set and a disarmed gap timer is armed (R64, R69). -/
def State.countOpened (s : State) (f : Frame) (ahead : Bool) : State :=
  let p := s.peer f.source
  if ahead then
    let bit := BitVec.twoPow 7 (s.distance f - 1)
    let timer := if p.gapTimer.isSome then p.gapTimer else some s.gapExpiryTick
    s.setPeer f.source { p with ahead := p.ahead ||| bit, gapTimer := timer }
  else s.setPeer f.source p.advance

/-- The release chain that follows a current opening (R63), as acts. -/
def State.chainActs (s : State) (f : Frame) (ahead : Bool) : List Act :=
  if ahead then [] else [.chain f.source (s.peer f.source).nextOpened]

/-- The Match Unit has answered: the position counts as opened; a refusal is counted and answered by a REFUSE (R22, R65);
the release chain follows; an accepted EAGER opening's frame then goes to its context as first fragment (R62; log entry
15). That counter 9 rises before the REFUSE is placed is the model's choice (log entry 41). -/
def State.takeAnswered (s : State) (l : Lane) (f : Frame) (ahead advanced : Bool) (a : OpenAnswer) :
    State × List Act :=
  let s' := s.countOpened f ahead
  let bookkeeping := s.chainActs f ahead ++ [.endRecord f.source (advanced || !ahead)]
  match a with
  | .refused reason => (s'.count 9 1, .place l (s.refuseFrame f reason) :: bookkeeping ++ [.freeIngress l])
  | .accepted none => (s', bookkeeping ++ [.freeIngress l])
  | .accepted (some c) => (s', bookkeeping ++ [.fragment c l f])

/-! ### Gap timer expiry (R70) -/

/-- An expiry claim on the record: discarded unless the timer still stands at that expiry tick (R70). -/
def State.takeGapExpiry (s : State) (node : Node) (expiry : Tick) : State × List Act :=
  let p := s.peer node
  if p.gapTimer == some expiry then
    (((s.setPeer node p.advance).count 11 1).hold (.record node),
      [.chain node p.nextOpened, .gapEvent node p.nextSeq 1 2, .endRecord node true])
  else (s, [])

/-! ### Dispatch (R39, R54) -/

/-- A frame that has passed the epoch check goes on by kind (R39). A message frame keeps the record; any other
leaves it. -/
def State.takeDispatch (s : State) (l : Lane) (f : Frame) : State × List Act :=
  match f.kind with
  | .data | .announce =>
    let s := s.adopt f
    (s, [.walk l f false (s.peer f.source).nextSeq 0])
  | .pdata => (s.unhold (.record f.source), [.pdata l f, .freeIngress l])
  | .retract => (s.unhold (.record f.source), [.retract l f, .freeIngress l])
  | .abort =>
    (s.unhold (.record f.source), [if f.toReceiver then .abortReceive l f else .answer l f, .freeIngress l])
  | _ => (s.unhold (.record f.source), [.answer l f, .freeIngress l])

/-- A RETRACT at the Match Unit (R27). -/
def State.takeRetract (s : State) (l : Lane) (f : Frame) : State × List Act :=
  match s.matching.findAnnounced f.source f.epoch f.seq with
  | some e =>
    (s.removeUnexpected e,
      [.place l { s.frameTo .ack f.source with seq := f.seq, handle := f.handle, flags := 0b0001 }])
  | none => (s, [])

end Sys2Proof.Machine
end

