-- ==== Sys2Proof/Machine/Drains.lean ====
section
/-! DEFINITION. Data Mover operations (Chapter 5): drain starts, chunk reads, and drain ends. -/

namespace Sys2Proof.Machine

/-- A drain slot (R109). -/
def State.slot (s : State) (k : Fin 4) : Option Drain := tabGet s.mover.slots k

/-- The state with a drain slot replaced. -/
def State.setSlot (s : State) (k : Fin 4) (x : Option Drain) : State :=
  s.setMover { s.mover with slots := tabSet s.mover.slots k x }

/-- The lowest-numbered FREE slot (R109). -/
def State.freeSlotId (s : State) : Option (Fin 4) := (List.finRange 4).find? fun k => (s.slot k).isNone

/-- The number of chunks of a drain (R110). -/
def Drain.chunks (d : Drain) : Nat := (d.length + 255) / 256

/-- The bytes a chunk covers (R110). -/
def Drain.chunkLength (d : Drain) (j : Nat) : Nat := min 256 (d.length - 256 * j)

/-- The drain goes on to read: it has not failed and a chunk is left (R110, R112). -/
def Drain.reading (d : Drain) : Bool := !d.failed && decide (d.nextChunk < d.chunks)

/-- The drain has come to its end: no read is outstanding and none is to be made (R111, R112). -/
def Drain.ended (d : Drain) : Bool := d.outstanding.isEmpty && !d.reading

/-- The next chunk of a slot's drain is read (R110). -/
def State.issueChunk (s : State) (k : Fin 4) (d : Drain) : State :=
  let d' := { d with nextChunk := d.nextChunk + 1, outstanding := d.outstanding ++ [{ tag := s.nextTag, chunk := d.nextChunk }] }
  (s.hostRead (d.address + BitVec.ofNat 64 (256 * d.nextChunk)) (d.chunkLength d.nextChunk)).setSlot k (some d')

/-- Up to `n` further chunk reads of a slot's drain, in ascending order (R110). -/
def State.issueChunks (s : State) (k : Fin 4) : Nat → State
  | 0 => s
  | n + 1 =>
    match s.slot k with
    | some d => if d.reading then (s.issueChunk k d).issueChunks k n else s
    | none => s

/-- How many reads a step issues: as many as asked, and one at least when none is outstanding (R110: a drain may
have from one to all of its reads outstanding; log entry 8). -/
def Drain.readCount (d : Drain) (asked : Nat) : Nat := if d.outstanding.isEmpty then max 1 asked else asked

/-- A slot's drain issues its reads. -/
def State.readOn (s : State) (k : Fin 4) (asked : Nat) : State :=
  match s.slot k with
  | some d => s.issueChunks k (d.readCount asked)
  | none => s

/-- A drain can start: the part is ONLINE, a slot is FREE and the Drain Queue holds an entry (R109). -/
def State.drainReady (s : State) : Bool :=
  s.host.partState == .online && s.freeSlotId.isSome && !s.mover.queue.isEmpty

/-- The drain an entry makes (R109). -/
def drainOf (id : Nat) (r : Receive) (m : Message) (p : StoredSpill) : Drain :=
  { entry := id, address := p.address, segments := r.segments, length := min m.length r.total, nextChunk := 0,
    outstanding := [], failed := false }

/-- The acts of a drain that has come to its end: the end is reported and the slot becomes FREE (R111, R112). -/
def endActs (k : Fin 4) (d : Drain) : List Act := if d.ended then [.drainEnd k, .freeSlot k] else []

/-- The Drain Queue head takes the slot and becomes DRAINING (R24, R109). -/
def State.startDrain (s : State) (k : Fin 4) (id : Nat) (reads : Nat) : State × List Act :=
  match s.matching.find id with
  | some { body := .bound r m _, .. } =>
    match m.spill with
    | some p =>
      let s := s.setMatching (s.matching.setBody id (.bound r m .draining))
      let s := s.setMover { s.mover with queue := s.mover.queue.tail }
      let d := drainOf id r m p
      ((s.setSlot k (some d)).readOn k reads, endActs k d)
    | none => (s, [])
  | _ => (s, [])

/-- A drain start claim (R109). -/
def State.takeDrainStart (s : State) (reads : Nat) : State × List Act :=
  if s.drainReady then
    match s.freeSlotId, s.mover.queue with
    | some k, id :: _ => s.startDrain k id reads
    | _, _ => (s, [])
  else (s, [])

/-- The slot whose drain has this read outstanding. -/
def State.chunkSlot (s : State) (tag : Nat) : Option (Fin 4) :=
  (List.finRange 4).find? fun k =>
    match s.slot k with
    | some d => d.outstanding.any (·.tag == tag)
    | none => false

/-- The chunk a read is for. -/
def Drain.chunkOf (d : Drain) (tag : Nat) : Option Nat := (d.outstanding.find? (·.tag == tag)).map (·.chunk)

/-- The drain with one read no longer outstanding. -/
def Drain.back (d : Drain) (tag : Nat) : Drain := { d with outstanding := d.outstanding.filter (·.tag != tag) }

/-- The acts that follow once a read of a slot's drain has come back. -/
def State.slotActs (s : State) (k : Fin 4) : List Act :=
  match s.slot k with
  | some d => endActs k d
  | none => []

/-- A chunk's data has returned: it is written into the segments unless the drain has failed, and further chunks are
read (R110, R112). That the writes leave before the reads issued in the same step is the model's choice (log entry
40). -/
def State.takeChunk (s : State) (tag : Nat) (bytes : Bytes) (reads : Nat) : State × List Act :=
  match s.chunkSlot tag with
  | none => (s, [])
  | some k =>
    match s.slot k with
    | none => (s, [])
    | some d =>
      match d.chunkOf tag with
      | none => (s, [])
      | some j =>
        let s := s.setSlot k (some (d.back tag))
        let s := if d.failed then s else s.hostWrites (scatter d.segments (256 * j) bytes)
        let s := s.readOn k reads
        (s, s.slotActs k)

/-- A chunk read is answered with an error (R112). -/
def State.takeChunkError (s : State) (tag : Nat) : State × List Act :=
  match s.chunkSlot tag with
  | none => (s, [])
  | some k =>
    match s.slot k with
    | none => (s, [])
    | some d =>
      let s := s.setSlot k (some { d.back tag with failed := true })
      (s, s.slotActs k)

/-- A drain's end reaches the Match Unit (R111, R112). That counter 15 rises here, when the Match Unit takes the end and
before its completions are given, is the model's choice (log entry 41). -/
def State.takeDrainEnd (s : State) (k : Fin 4) : State × List Completion :=
  match s.slot k with
  | none => (s, [])
  | some d =>
    if d.failed then s.endBound d.entry .hostReadError 0
    else (s.count 15 1).deliver d.entry

end Sys2Proof.Machine
end

