-- ==== Sys2Proof/Machine/Claims.lean ====
section
/-! DEFINITION. Claims in progress: when an act can be done, what it does, how a claim runs until it is finished or
waits, how waiting claims go on, and the test of the stopping condition (R186) after every command. -/

namespace Sys2Proof.Machine

/-! ### When an act can be done -/

/-- None of these contexts has a claim in progress. -/
def State.unheldContexts (s : State) (cs : List (Fin 64)) : Bool := cs.all fun c => s.unheld (.context c)

/-- The Completion Holding Queue takes a completion (R169, R172). -/
def State.chqTakes (s : State) : Bool := decide (s.ring.chq.length < chqSize)

/-- The Control Frame Queue of the lane takes a frame (R151). -/
def State.queueTakes (s : State) (l : Lane) : Bool := decide ((s.lane l).queue.length < queueSize)

/-- The act can be done now: the unit it is a claim on takes claims, or the queue it needs has room
(R7, R50, R73, R114, R151, R172). A message frame whose FILLING context has a claim in progress keeps its record and is
looked up again when the context is free (R59, log entry 30). -/
def Act.ready (s : State) : Act → Bool
  | .give _ => s.chqTakes
  | .placeOn l _ => s.queueTakes l
  | .postRecv _ | .cancelRecv _ | .probe _ | .domainOpen _ | .opening _ _ _ _ | .report _ _ | .retract _ _
  | .deadline _ _ | .pullService | .drainStart _ | .drainEnd _ => s.unheld .matchUnit
  | .domainClose r => s.unheld .matchUnit && s.unheldContexts (s.closeContexts r.domain)
  | .restartMatch node => s.unheld .matchUnit && s.unheldContexts (s.contextsOf node)
  | .send _ | .cancelSend _ | .restartSend _ | .answer _ _ | .responseExpiry _ _ _ | .allocate | .readReturn _ _
  | .readError _ => s.unheld .sendUnit
  | .epoch _ f => s.unheld (.record f.source)
  | .gapExpiry node _ => s.unheld (.record node)
  | .walk _ f isOpened _ _ =>
    s.baseAhead f = 0 || s.releaseReady f.source isOpened
  | .chain node isOpened => s.releaseReady node isOpened
  | .lookup _ f _ =>
    match s.lookupContext f with
    | some c => s.unheld (.context c)
    | none => true
  | .spillWait _ _ _ _ => s.spillAnswered
  | .pdata _ f | .abortReceive _ f => s.unheld (.context (refContext f.contextRef))
  | .contextExpiry c _ _ => s.unheld (.context c)
  | .place _ _ | .dropped | .unlock _ | .endTake | .freeIngress _ | .dispatch _ _ | .gapEvent _ _ _ _
  | .answered _ _ _ _ _ | .endRecord _ _ | .fragment _ _ _ | .freeContext _ | .freeSlot _
  | .retracting _ _ | .endSend _ _ _ | .endFetch => true

/-! ### What an act does -/

/-- Claims finished on several units. -/
def State.unlock (s : State) (locks : List Lock) : State := locks.foldl State.unhold s

/-- A claim that holds a unit until the acts that follow are done. -/
def holding (locks : List Lock) (p : State × List Act) : State × List Act :=
  (locks.foldl State.hold p.1, p.2 ++ [.unlock locks])

/-- A claim that holds a unit until its completions have been taken (R172). -/
def giving (locks : List Lock) (p : State × List Completion) : State × List Act :=
  holding locks (thenGives p)

/-- A claim on a context that has nothing more to do, or holds the context until its acts are done (R73). -/
def ending (p : State × Option (Fin 64 × List Act)) : State × List Act :=
  match p with
  | (s, none) => (s, [])
  | (s, some (c, acts)) => holding [.context c] (s, acts)

/-- A control frame is placed for its nominal lane, or dropped and counted when no lane is UP (R152, R153). -/
def State.takePlace (s : State) (nominal : Lane) (f : Frame) : State × List Act :=
  match s.chooseLane nominal with
  | some l => (s, [.placeOn l f])
  | none => (s.count 13 1, [])

/-- A frame joins the tail of a Control Frame Queue (R151). -/
def State.placeFrame (s : State) (l : Lane) (f : Frame) : State :=
  s.setLane l { s.lane l with queue := (s.lane l).queue ++ [f] }

/-- A lane whose oldest frame has been handled: its buffer becomes FREE (R146). -/
def LaneRecord.freed (r : LaneRecord) : LaneRecord := { r with ingress := r.ingress.tail, busy := false }.oweBuffer

/-- The lanes decide on what the frame has brought (R149); then the block that had the lane's oldest frame has
finished with it and its buffer becomes FREE (R146). This may come while other claims wait: a lane's ask made here is
taken ahead of a claim that waits for the Send Unit and could go on, which is the model's choice (log entries 29 and
36). -/
def State.freeIngress (s : State) (l : Lane) : State := s.egress.setLane l (s.egress.lane l).freed

/-- An expiry of a POSTED entry's deadline, if it still stands (R17). -/
def State.takeDeadline (s : State) (entry : Nat) (expiry : Tick) : State × List Completion :=
  if s.matching.deadline entry == some expiry then s.endPosted entry .timeout else (s, [])

/-- An expiry of a context, if it still has that generation and last activity (R89). -/
def State.expireContext (s : State) (c : Fin 64) (generation : BitVec 8) (last : Tick) : State × List Act :=
  if s.expires c generation last then holding [.context c] (s.takeContextExpiry c) else (s, [])

/-- An expiry of a response timer, if it still stands (R131). -/
def State.expireResponse (s : State) (i : Fin 32) (generation : BitVec 11) (expiry : Tick) :
    State × List Completion :=
  if s.responseArmed i generation expiry then s.takeResponseExpiry i else (s, [])

/-- The report of a context's end: a claim on the Match Unit. The rules give the report and the FREE state no order; the
model makes the context FREE, with the pull service claim, once the report has been taken and its completions given (log
entry 34) (R82, R83, R85, R87, R88, R90 to R93). -/
def State.reportContext (s : State) (c : Fin 64) (how : ContextEnd) : State × List Act :=
  let p := giving [.matchUnit] (s.takeReport c how)
  (p.1, p.2 ++ [.freeContext c])

/-- An opening at the Match Unit, which holds it until it has answered (R7, R18). -/
def State.runOpening (s : State) (l : Lane) (f : Frame) (ahead advanced : Bool) : State × List Act :=
  let p := (s.hold .matchUnit).takeOpening l f ahead
  (p.1, openNext l f ahead advanced p.2)

/-- An act is done: the new state, and the acts of the same claim that come next. -/
def Act.run (s : State) : Act → State × List Act
  | .give c => (s.takeCompletion c, [])
  | .place nominal f => s.takePlace nominal f
  | .placeOn l f => (s.placeFrame l f, [])
  | .dropped => (s, [])
  | .unlock locks => (s.unlock locks, [])
  | .endTake => (s.setRing { s.ring with take := .noTake }, [])
  | .freeIngress l => (s.freeIngress l, [])
  | .postRecv r => giving [.matchUnit] (s.takePostRecv r)
  | .cancelRecv r => giving [.matchUnit] (s.takeCancelRecv r)
  | .probe r => giving [.matchUnit] (s, [s.probe r])
  | .domainOpen r => giving [.matchUnit] (s.takeDomainOpen r)
  | .domainClose r => giving [.matchUnit] (s.takeDomainClose r)
  | .send r => giving [.sendUnit] (s.takeSend r)
  | .cancelSend r => holding [.sendUnit] (s.takeCancelSend r)
  | .retracting i cancel => (s.startRetracting i cancel, [])
  | .endSend i status detail => thenGives (s.takeEndSend i status detail)
  | .epoch l f => s.takeEpoch l f
  | .restartMatch node => giving [.matchUnit] (s.restartMatch node)
  | .restartSend node => giving [.sendUnit] (s.restartSend node)
  | .dispatch l f => s.takeDispatch l f
  | .walk l f isOpened first skipped => s.takeWalk l f isOpened first skipped
  | .chain node isOpened => s.takeChain node isOpened
  | .gapEvent node first skipped cause => (s.giveEvent (Machine.gapEvent node first skipped cause), [])
  | .lookup l f advanced => s.takeLookup l f advanced
  | .opening l f ahead advanced => s.runOpening l f ahead advanced
  | .spillWait l f ahead advanced =>
    ((s.resumeSpill l f ahead).1, openNext l f ahead advanced (s.resumeSpill l f ahead).2)
  | .answered l f ahead advanced a => (s.unhold .matchUnit).takeAnswered l f ahead advanced a
  | .endRecord node advanced => (s.endRecord node advanced, [])
  | .fragment c l f =>
    ((s.takeFragment c l f).1, (s.takeFragment c l f).2 ++ [.unlock [.context c], .freeIngress l])
  | .report c how => s.reportContext c how
  | .freeContext c => (s.freeContext c, [])
  | .pdata l f => ending (s.takePdata l f)
  | .abortReceive _ f => ending (s.takeAbortReceive f)
  | .retract l f => holding [.matchUnit] (s.takeRetract l f)
  | .answer l f => holding [.sendUnit] (s.takeAnswer l f)
  | .deadline entry expiry => giving [.matchUnit] (s.takeDeadline entry expiry)
  | .gapExpiry node expiry => s.takeGapExpiry node expiry
  | .contextExpiry c generation last => s.expireContext c generation last
  | .responseExpiry i generation expiry => giving [.sendUnit] (s.expireResponse i generation expiry)
  | .pullService => holding [.matchUnit] s.takePullService
  | .drainStart reads => s.takeDrainStart reads
  | .drainEnd k => giving [.matchUnit] (s.takeDrainEnd k)
  | .freeSlot k => (s.setSlot k none, [])
  | .allocate => holding [.sendUnit] s.takeAllocation
  | .readReturn tag bytes => (s.takeReadReturn tag bytes, [])
  | .readError tag => holding [.sendUnit] (s.takeReadError tag)
  | .endFetch => (s.setSpill { s.spill with fetch := .noFetch }, [])

/-! ### Running a claim -/

/-- The claim waits: it joins the claims in progress that wait. -/
def State.suspend (s : State) (acts : List Act) : State :=
  if acts.isEmpty then s else s.setClaims { s.claims with waiting := s.claims.waiting ++ [acts] }

/-- The claim waits for its act's turn behind a claim that already waits to give a completion. -/
def waitsToGive : List Act → Bool
  | .give _ :: _ => true
  | _ => false

/-- The act would overtake a waiting giver (R172) or a producer waiting on the same queue (R151). -/
def State.overtakes (s : State) : Act → Bool
  | .give _ => s.claims.waiting.any waitsToGive
  | .placeOn l _ => s.claims.waiting.any (waitsOnLane l)
  | _ => false

/-- A claim runs until it is finished or has to wait; the number bounds its acts. -/
def State.runActs : Nat → State → List Act → State
  | 0, s, acts => s.suspend acts
  | _ + 1, s, [] => s
  | n + 1, s, a :: rest =>
    if a.ready s && !s.overtakes a then
      State.runActs n (a.run s).1 ((a.run s).2 ++ rest)
    else s.suspend (a :: rest)

/-- More acts than any claim has (the longest claim ends 1024 entries, tests 64 domains and ends 32 sends). -/
def actBound : Nat := 4096

/-- The first waiting claim whose act can be done: the act, the rest of the claim, and the other claims. -/
def State.firstReady (s : State) : List (List Act) → Option (Act × List Act × List (List Act))
  | [] => none
  | [] :: others => s.firstReady others
  | (a :: rest) :: others =>
    if a.ready s then some (a, rest, others)
    else (s.firstReady others).map fun (b, r, os) => (b, r, (a :: rest) :: os)

/-- Waiting claims go on, the first that can be served first, until none can; the number bounds how many do. -/
def State.settleClaims : Nat → State → State
  | 0, s => s
  | n + 1, s =>
    match s.firstReady s.claims.waiting with
    | none => s
    | some (a, rest, others) =>
      let p := a.run (s.setClaims { s.claims with waiting := others })
      State.settleClaims n (State.runActs actBound p.1 (p.2 ++ rest))

/-- How many waiting claims go on at most after one command. -/
def settleBound : Nat := 16384

/-! ### The stopping condition (R186) -/

/-- An entry counts against the stopping condition. -/
def SendState.supplies : SendState → Bool
  | .eagerSending | .streaming => true
  | _ => false

/-- The six terms of the stopping condition (R186). -/
def State.quiet (s : State) : Bool :=
  (List.finRange 64).all (fun c => !(s.context c).body.inUse)
  && (List.finRange 4).all (fun k => (s.slot k).isNone)
  && sendIndexes.all (fun i => !(s.sendEntry i).state.supplies)
  && s.ring.chq.isEmpty && !s.claims.waiting.any waitsToGive
  && s.ring.take == .noTake && s.spill.fetch == .noFetch

/-- A PART_STATE event (R187). -/
def partEvent (new old : PartState) : Event :=
  { kind := .partState, paramA := BitVec.ofNat 32 new.code, paramB := BitVec.ofNat 32 old.code }

/-- The part moves among ONLINE, STOPPING and STOPPED: the state, then its event (R187). -/
def State.changePart (s : State) (new : PartState) : State :=
  (s.setHost { s.host with partState := new }).giveEvent (partEvent new s.host.partState)

/-- A part in STOPPING that meets the stopping condition enters STOPPED (R186). -/
def State.stopTest (s : State) : State :=
  if s.host.partState == .stopping && s.quiet then (s.changePart .stopped).raise causeState else s

/-- Waiting claims that can go on do so, and the lanes decide again; a frame that so leaves the head of a queue lets the
next waiting one be placed, and so on until no claim can go on (R149, R151, R172). The decision
of each round so comes after every waiting claim that can go on (log entry 36). The number bounds the rounds. -/
def State.goOn : Nat → State → State
  | 0, s => s
  | n + 1, s =>
    if (s.firstReady s.claims.waiting).isSome then State.goOn n (State.settleClaims settleBound s).egress else s

/-- What follows a command in a part that holds Setup values: the lanes decide (R149), waiting claims that can go on
do so, and the stopping condition is tested (R186). That it all follows within the command, and in this order, is the
model's choice (log entries 6 and 29); so is that the lanes' first decision comes ahead of the waiting claims (log entry
36). -/
def State.settled (s : State) : State := (State.goOn settleBound s.egress).stopTest

/-- What follows a command. Outside ONLINE, STOPPING and STOPPED nothing does (R188). -/
def State.finish (s : State) : State := if s.active then s.settled else s

/-- A claim is made and runs. -/
def State.make (s : State) (acts : List Act) : State := (State.runActs actBound s acts).finish

end Sys2Proof.Machine
end

