-- ==== Sys2Proof/Machine/Control.lean ====
section
/-! DEFINITION. Part control (Chapter 9): power-on, the PART_CTL commands, the other registers, the end of loading,
and the tick counter. -/

namespace Sys2Proof.Machine

/-- The outcome of every command: a next state. -/
abbrev Result := Host.Outcome State Fault Refusal

/-! ### Resets (R190, R191) -/

/-- The frames being sent are cut off as both lanes leave their states (R154, R191). -/
def State.cutFrames (s : State) : State := (s.cutFrame .a).cutFrame .b

/-- Every block at its power-on value (R190); what has left the part, the queue of commands and the model's own
numbering go on (log entry 22). -/
def State.powerOn (s : State) : State :=
  let s := s.cutFrames
  { State.reset with
    claims := { Claims.reset with nextTag := s.claims.nextTag, choices := s.claims.choices }
    outbox := s.outbox
    pending := s.pending }

/-- A function reset: the power-on values, but for SETUP_ADDR_LO, SETUP_ADDR_HI and INT_MASK (R191) and the MSI
enable, which is not the part's (R194). -/
def State.functionReset (s : State) : State :=
  s.powerOn.setHost { HostPort.reset with
    setupAddrLo := s.host.setupAddrLo
    setupAddrHi := s.host.setupAddrHi
    intMask := s.host.intMask
    msiEnable := s.host.msiEnable }

/-! ### Commands (R182 to R185) -/

/-- The last command result (R178, R182). -/
def State.setResult (s : State) (r : CommandResult) : State := s.setHost { s.host with lastResult := r }

/-- The Setup Block address (R177, R183). -/
def HostPort.setupAddress (h : HostPort) : BitVec 64 := h.setupAddrHi ++ h.setupAddrLo

/-- How many bytes a Setup Block has (R179). -/
def setupLength : Nat := 128

/-- Loading begins: the address is captured and the Setup Block is read (R183). -/
def State.startLoading (s : State) : State :=
  let read : SetupRead := { tag := s.nextTag, address := s.host.setupAddress }
  (s.hostRead read.address setupLength).setHost
    { s.host with partState := .loading, setupError := 0, lastResult := .accepted, setupRead := some read }

/-- The blocks test what they start only in ONLINE: a pull service claim and an allocation claim are made
(R76, R119, R184). -/
def State.onlineClaims (s : State) : State := s.claimPullService.claimAllocation

/-- A START taken in STOPPED (R184). -/
def State.resume (s : State) : State := ((s.changePart .online).raise causeState).onlineClaims

/-- START (R182). -/
def State.startCommand (s : State) : State :=
  match s.host.partState with
  | .idle => s.startLoading
  | .stopped => ((s.setResult .accepted).resume).finish
  | _ => s.setResult .ignored

/-- STOP (R182, R185). -/
def State.stopCommand (s : State) : State :=
  match s.host.partState with
  | .online => ((s.setResult .accepted).changePart .stopping).finish
  | _ => s.setResult .ignored

/-- A write to PART_CTL (R182). -/
def State.partCtl (s : State) (value : BitVec 32) : State :=
  if value = 1 then s.startCommand
  else if value = 2 then s.stopCommand
  else if value = 3 then s.functionReset
  else s.setResult .ignored

/-- POWER_ON (R190). -/
def execPowerOn (s : State) : Result := .next s.powerOn

/-- START (R183, R184). -/
def execStart (s : State) : Result := .next s.startCommand

/-- STOP (R185). -/
def execStop (s : State) : Result := .next s.stopCommand

/-- RESET (R191). -/
def execReset (s : State) : Result := .next s.functionReset

/-- PART_CTL written with a value other than 1, 2 or 3 (R182; log entry 23). -/
def execPartCtlOtherValue (value : BitVec 32) (s : State) : Result := .next (s.partCtl value)

/-! ### Loading (R183, R184) -/

/-- A loading fails: back to IDLE with a setup error, and the STATE cause is raised (R183). -/
def State.failLoading (s : State) (code : Nat) : State :=
  (s.setHost { s.host with partState := .idle, setupError := code, setupRead := none }).raise causeState

/-- The Ring Unit at the completion of loading: eight counts 0, CHQ empty, lost count 0 (R184, stage 2). -/
def RingUnit.loaded (r : RingUnit) : RingUnit := { RingUnit.reset with take := r.take }

/-- A lane at the completion of loading: TRAINING when enabled, else DISABLED, with its event (R139, R140, R184). -/
def State.leaveDown (s : State) (l : Lane) (enabled : Bool) : State :=
  if enabled then s.enterTraining l 1
  else (s.setLane l { s.lane l with state := .disabled }).giveEvent (laneEvent l .disabled 2 0)

/-- Loading completes, in the stages of R184. -/
def State.completeLoading (s : State) (c : Setup) : State :=
  let s := s.setHost { s.host with setup := some c, setupRead := none }
  let s := s.setRing s.ring.loaded
  let s := (s.setHost { s.host with tick := 0 }).shadowWrite
  let s := s.changePart .online
  let s := (s.leaveDown .a (c.laneMask.getLsbD 0)).leaveDown .b (c.laneMask.getLsbD 1)
  (s.raise causeState).onlineClaims.finish

/-- The Setup Block has been read (R180, R183). -/
def State.checkSetup (s : State) (bytes : Bytes) : State :=
  match setupFault (parseSetup bytes) with
  | some code => s.failLoading code
  | none => s.completeLoading (parseSetup bytes)

/-- The read belongs to the loading in progress. -/
def State.awaitsSetup (s : State) (tag : Nat) : Bool :=
  s.host.partState == .loading &&
    match s.host.setupRead with
    | some r => r.tag == tag
    | none => false

/-- The Setup Block read comes back (R183; log entry 20). -/
def State.setupReply (s : State) (tag : Nat) (reply : Option Bytes) : State :=
  if s.awaitsSetup tag then
    match reply with
    | none => s.failLoading 1
    | some bytes => if bytes.length = setupLength then s.checkSetup bytes else s
  else s

/-- SETUP_BLOCK_READ_DONE (R183, R184). -/
def execSetupBlockReadDone (tag : Nat) (reply : Option Bytes) (s : State) : Result := .next (s.setupReply tag reply)

/-! ### FAILED (R188) -/

/-- The part enters FAILED: the state, the cause, the lanes DOWN, and FATAL raised (R145, R188). Everything else
stands as it was. -/
def State.enterFailed (s : State) (cause : FailureCause) : State :=
  let s := s.setHost { s.host with partState := .failed, failureCause := cause }
  ((s.enterDown .a).enterDown .b).raise causeFatal

/-! ### The registers (R177, R193, R194) -/

/-- A write to INT_CAUSE clears each cause written as 1 (R194). -/
def State.clearCauses (s : State) (value : BitVec 32) : State :=
  s.setInterrupts (s.host.intCause &&& ~~~(value.setWidth 4)) s.host.intMask s.host.msiEnable

/-- A write to INT_MASK sets the four enables (R194). -/
def State.setMask (s : State) (value : BitVec 32) : State :=
  s.setInterrupts s.host.intCause (value.setWidth 4) s.host.msiEnable

/-- INT_CAUSE_WRITE (R194). -/
def execIntCauseWrite (value : BitVec 32) (s : State) : Result := .next (s.clearCauses value)

/-- INT_MASK_WRITE (R194). -/
def execIntMaskWrite (value : BitVec 32) (s : State) : Result := .next (s.setMask value)

/-- MSI_ENABLE_CHANGE (R194). -/
def execMsiEnableChange (enable : Bool) (s : State) : Result :=
  .next (s.setInterrupts s.host.intCause s.host.intMask enable)

/-- TICK: the tick counter advances in ONLINE, STOPPING and STOPPED (R192). -/
def execTick (s : State) : Result :=
  .next (if s.active then s.setHost { s.host with tick := s.host.tick + 1 } else s)

end Sys2Proof.Machine
end

