-- ==== Sys2Proof/Machine/Frames.lean ====
section
/-! DEFINITION. Frames in and out of the lanes: arrival (R144), the checks of R39 on the oldest frame of a lane and
its way to the block its kind names, the frames the lane takes itself (R142, R148), and the end of a sending
(R149). -/

namespace Sys2Proof.Machine

/-! ### Arrival (R35, R36, R144) -/

/-- Counter 2 or 3 (R36). -/
def crcCounter : Lane → Fin 16
  | .a => 2
  | .b => 3

/-- Counter 0 or 1 (R39). -/
def acceptedCounter : Lane → Fin 16
  | .a => 0
  | .b => 1

/-- A frame fails its CRC: counted, and its buffer is FREE at once (R36, R146). -/
def State.dropCrc (s : State) (l : Lane) : State :=
  let s := s.count (crcCounter l) 1
  s.setLane l (s.lane l).oweBuffer

/-- A frame at a receiver that takes frames (R144). -/
def State.receive (s : State) (l : Lane) (bytes : Bytes) : State :=
  if ingressSize ≤ (s.lane l).ingress.length then s.enterFault l 7
  else if crcGood bytes then s.setLane l { s.lane l with ingress := (s.lane l).ingress ++ [bytes] }
  else s.dropCrc l

/-- FRAME_ARRIVAL (R36, R144). -/
def execFrameArrival (lane : Lane) (bytes : Bytes) (s : State) : Result :=
  .next (if s.active && (s.lane lane).receiving then (s.receive lane bytes).finish else s)

/-! ### The lane checks (R39 to R41) -/

/-- The lane's oldest frame, while the lane is not handling one (R146). -/
def State.oldest (s : State) (l : Lane) : Option Bytes :=
  if s.active && !(s.lane l).busy then (s.lane l).ingress.head? else none

/-- The lane begins to handle its oldest frame (R146). -/
def State.beginFrame (s : State) (l : Lane) : State := s.setLane l { s.lane l with busy := true }

/-- The frame is dropped by a check of R39: counted, and its buffer becomes FREE (R39, R146). -/
def State.dropFrame (s : State) (l : Lane) (counter : Fin 16) : State :=
  (s.count counter 1).make [.freeIngress l]

/-- Steps 2 to 4 of R39: well-formedness, destination, acceptance; then `go`. -/
def State.checkFrame (s : State) (l : Lane) (f : Frame) (size : Nat) (go : State → State) : State :=
  if !f.wellFormed size then s.dropFrame l 4
  else if f.dest != s.setup.nodeId then s.dropFrame l 5
  else go (s.count (acceptedCounter l) 1)

/-- The lane's oldest frame is taken when it is one of the row's (log entry 2). -/
def State.takeFrame (s : State) (l : Lane) (row : Frame → Bool) (go : Frame → State → State) : State :=
  match s.oldest l with
  | none => s
  | some bytes =>
    match parseFrame bytes with
    | some f => if row f then (s.beginFrame l).checkFrame l f bytes.length (go f) else s
    | none => s

/-- A frame goes on to the epoch check and dispatch (R39, steps 5 and 6). -/
def State.toPeers (l : Lane) (f : Frame) (s : State) : State := s.make [.epoch l f]

/-- A frame of a kind that is checked for epoch is taken. -/
def State.takeChecked (s : State) (l : Lane) (row : Frame → Bool) : State :=
  s.takeFrame l row (State.toPeers l)

/-- DATA (R54). -/
def execData (lane : Lane) (s : State) : Result := .next (s.takeChecked lane (·.kind == .data))

/-- ANNOUNCE (R54, R62). -/
def execAnnounce (lane : Lane) (s : State) : Result := .next (s.takeChecked lane (·.kind == .announce))

/-- PULL (R126, R127). -/
def execPull (lane : Lane) (s : State) : Result := .next (s.takeChecked lane (·.kind == .pull))

/-- PDATA (R86 to R88). -/
def execPdata (lane : Lane) (s : State) : Result := .next (s.takeChecked lane (·.kind == .pdata))

/-- ACK (R126, R128). -/
def execAck (lane : Lane) (s : State) : Result := .next (s.takeChecked lane (·.kind == .ack))

/-- REFUSE (R126, R129). -/
def execRefuse (lane : Lane) (s : State) : Result := .next (s.takeChecked lane (·.kind == .refuse))

/-- RETRACT (R27). -/
def execRetract (lane : Lane) (s : State) : Result := .next (s.takeChecked lane (·.kind == .retract))

/-- ABORT with TO_RECEIVER clear (R126, R129). -/
def execAbortToSender (lane : Lane) (s : State) : Result :=
  .next (s.takeChecked lane fun f => f.kind == .abort && !f.toReceiver)

/-- ABORT with TO_RECEIVER set (R93). -/
def execAbortToReceiver (lane : Lane) (s : State) : Result :=
  .next (s.takeChecked lane fun f => f.kind == .abort && f.toReceiver)

/-- NO_KIND_FRAME: malformed (R34, R40). -/
def execNoKindFrame (lane : Lane) (s : State) : Result :=
  .next (match s.oldest lane with
    | none => s
    | some bytes =>
      match parseFrame bytes with
      | some _ => s
      | none => (s.beginFrame lane).dropFrame lane 4)

/-! ### Frames the lane takes itself (R142, R148) -/

/-- A TRAIN_ACK (R139, R142): a TRAINING lane whose TRAIN has left enters UP with its credits; else stale. -/
def State.takeTrainAck (l : Lane) (f : Frame) (s : State) : State :=
  let r := s.lane l
  let s :=
    if r.state == .training && r.trainSent then
      (s.setLane l { r with
          state := .up, creditLimit := f.total.toNat, credits := f.total.toNat, trainingTimer := none }).giveEvent
        (laneEvent l .up 3 (f.total.setWidth 16))
    else s.stale
  s.make [.freeIngress l]

/-- TRAIN_ACK (R142). -/
def execTrainAck (lane : Lane) (s : State) : Result :=
  .next (s.takeFrame lane (·.kind == .trainAck) (State.takeTrainAck lane))

/-- A CREDIT (R142, R148): in UP it adds credits, or is a credit overflow; else stale. -/
def State.takeCredit (l : Lane) (f : Frame) (s : State) : State :=
  let r := s.lane l
  let s :=
    if r.state == .up then
      if f.total.toNat ≤ r.creditLimit - r.credits then
        s.setLane l { r with credits := r.credits + f.total.toNat }
      else s.enterFault l 6
    else s.stale
  s.make [.freeIngress l]

/-- CREDIT (R148). -/
def execCredit (lane : Lane) (s : State) : Result :=
  .next (s.takeFrame lane (·.kind == .credit) (State.takeCredit lane))

/-- A TRAIN (R142): stale in every state. -/
def State.takeTrain (l : Lane) (_ : Frame) (s : State) : State := s.stale.make [.freeIngress l]

/-- TRAIN (R142). -/
def execTrain (lane : Lane) (s : State) : Result :=
  .next (s.takeFrame lane (·.kind == .train) (State.takeTrain lane))

/-! ### The end of a sending (R141, R149) -/

/-- The frame being sent has left; a TRAIN sets the TRAIN sent flag (R141); the arbiter decides again (R149). -/
def State.endSending (s : State) (l : Lane) (t : TxFrame) : State :=
  let r := s.lane l
  let s := s.emit (.frame l t.frame.bytes)
  (s.setLane l { r with transmitter := none, trainSent := r.trainSent || t.source == .train }).finish

/-- FRAME_SENT (R149). -/
def execFrameSent (lane : Lane) (s : State) : Result :=
  .next (match (s.lane lane).transmitter with
    | some t => if s.active then s.endSending lane t else s
    | none => s)

end Sys2Proof.Machine
end

