-- ==== Sys2Proof/Machine/Rings.lean ====
section
/-! DEFINITION. Ring counts, request takes and register writes (Chapter 8, R177). -/

namespace Sys2Proof.Machine

/-! ### Count registers (R156 to R159) -/

/-- A RING_INDEX_ERROR event (R159). -/
def ringEvent (ring : BitVec 16) (written judged : BitVec 16) : Event :=
  { kind := .ringIndexError, node := ring, paramA := written.setWidth 32, paramB := judged.setWidth 32 }

/-- A tail write is taken: it neither withdraws entries nor posts more than the ring holds (R157). -/
def tailTaken (old written head : BitVec 16) (size : Nat) : Bool :=
  decide (occupancy old head ≤ occupancy written head) && decide (occupancy written head ≤ size)

/-- A head write is taken: it consumes no more than has been written (R158). -/
def headTaken (old written tail : BitVec 16) : Bool := decide ((written - old).toNat ≤ (tail - old).toNat)

/-- A write to RQ_TAIL (R156, R157, R159). -/
def State.writeRqTail (s : State) (value : BitVec 32) : State :=
  let r := s.ring
  let v := value.setWidth 16
  if !s.active then s
  else if tailTaken r.rqTail v r.requestHead s.setup.requestSize then s.setRing { r with rqTail := v }
  else s.giveEvent (ringEvent 0 v r.requestHead)

/-- A write to SR_TAIL (R156, R157, R159). -/
def State.writeSrTail (s : State) (value : BitVec 32) : State :=
  let r := s.ring
  let v := value.setWidth 16
  if !s.active then s
  else if tailTaken r.srTail v r.spillHead s.setup.spillRingSize then s.setRing { r with srTail := v }
  else s.giveEvent (ringEvent 1 v r.spillHead)

/-- A write to CQ_HEAD (R156, R158, R159): a taken one lets the CHQ drain (R170) and waiting givers go on (R172). -/
def State.writeCqHead (s : State) (value : BitVec 32) : State :=
  let r := s.ring
  let v := value.setWidth 16
  if !s.active then s
  else if headTaken r.cqHead v r.completionTail then ((s.setRing { r with cqHead := v }).drainChq).finish
  else s.giveEvent (ringEvent 2 v r.completionTail)

/-- A write to ER_HEAD (R156, R158, R159). -/
def State.writeErHead (s : State) (value : BitVec 32) : State :=
  let r := s.ring
  let v := value.setWidth 16
  if !s.active then s
  else if headTaken r.erHead v r.eventTail then s.setRing { r with erHead := v }
  else s.giveEvent (ringEvent 3 v r.eventTail)

/-- RQ_TAIL_WRITE (R157). -/
def execRqTailWrite (value : BitVec 32) (s : State) : Result := .next (s.writeRqTail value)

/-- SR_TAIL_WRITE (R157). -/
def execSrTailWrite (value : BitVec 32) (s : State) : Result := .next (s.writeSrTail value)

/-- CQ_HEAD_WRITE (R158, R170). -/
def execCqHeadWrite (value : BitVec 32) (s : State) : Result := .next (s.writeCqHead value)

/-- ER_HEAD_WRITE (R158). -/
def execErHeadWrite (value : BitVec 32) (s : State) : Result := .next (s.writeErHead value)

/-! ### Writes into the register window (R177) -/

/-- A 32-bit write at an offset (R177); an offset whose write is a row of its own has that row's effect
(log entry 23). -/
def State.writeRegister (s : State) (offset : BitVec 12) (value : BitVec 32) : State :=
  if offset = 0x004 then s.partCtl value
  else if offset = 0x010 then s.setHost { s.host with setupAddrLo := value &&& 0xFFFFFFC0#32 }
  else if offset = 0x014 then s.setHost { s.host with setupAddrHi := value }
  else if offset = 0x020 then s.writeRqTail value
  else if offset = 0x024 then s.writeSrTail value
  else if offset = 0x028 then s.writeCqHead value
  else if offset = 0x02C then s.writeErHead value
  else if offset = 0x030 then s.clearCauses value
  else if offset = 0x034 then s.setMask value
  else s

/-- REGISTER_WRITE (R177): a write of fewer than four bytes is ignored. -/
def execRegisterWrite (offset : BitVec 12) (size : Nat) (value : BitVec 32) (s : State) : Result :=
  .next (if size = 4 then s.writeRegister offset value else s)

/-! ### Request takes (R162) -/

/-- How many bytes a request record has (R163). -/
def recordLength : Nat := 128

/-- A take can start (R162). -/
def State.takeReady (s : State) : Bool :=
  s.host.partState == .online && s.chqTakes && s.ring.take == .noTake
    && decide (0 < occupancy s.ring.rqTail s.ring.requestHead)

/-- A take starts: the slot of the request head is read (R162). -/
def State.startTake (s : State) : State :=
  let tag := s.nextTag
  let s := s.hostRead (slotAddress s.setup.requestBase s.ring.requestHead s.setup.requestSize recordLength) recordLength
  s.setRing { s.ring with take := .reading tag }

/-- REQUEST_TAKE_START (R162; log entry 2). -/
def execRequestTakeStart (s : State) : Result := .next (if s.takeReady then s.startTake else s)

/-- The read belongs to the take in progress. -/
def State.awaitsRequest (s : State) (tag : Nat) : Bool := s.active && s.ring.take == .reading tag

/-- REQUEST_READ_ERROR (R162, R188). -/
def execRequestReadError (tag : Nat) (s : State) : Result :=
  .next (if s.awaitsRequest tag then s.enterFailed .requestRing else s)

/-- A request record is taken: the request head rises, a shadow write follows, and the Request Processor has the
record (R160, R162). -/
def State.takeRecord (s : State) : State :=
  (s.setRing { s.ring with requestHead := s.ring.requestHead + 1, take := .owned }).shadowWrite

/-- The claim of a valid request: its owner's act, and the end of the take. -/
def requestActs (s : State) (kind : RequestKind) (record : Bytes) (act : Request → Act) : List Act :=
  match requestFault s.setup.nodeId kind record with
  | some detail => [.give (badRequest record detail), .endTake]
  | none => [act (parseRequest record), .endTake]

/-- A request read returns a record: of `kind` when its kind byte is the kind's (R162, R165, R166; log entries 2, 20). -/
def State.request (s : State) (kind : RequestKind) (tag : Nat) (record : Bytes) (act : Request → Act) : State :=
  if s.awaitsRequest tag && record.length == recordLength && byteAt record 0 == kind.code then
    s.takeRecord.make (requestActs s kind record act)
  else s

end Sys2Proof.Machine
end

