-- ==== Sys2Proof/WellFormed.lean ====
section
/-! DEFINITION. Which operands belong to a row of the table. A command that fails its check is no command of
that row (exec then changes nothing, or does what the register map says of the value: log entries 2 and 23). -/

namespace Sys2Proof

/-- A record of 128 bytes whose kind byte is the row's (R163). -/
def recordOf (kind : Nat) (record : Bytes) : Bool :=
  record.length == 128 && record.head? == some (BitVec.ofNat 8 kind)

/-- A record of 128 bytes whose kind byte names no kind: 0 or 10..255 (R165). -/
def recordOfNoKind (record : Bytes) : Bool :=
  record.length == 128 &&
    match record.head? with
    | some k => k.toNat == 0 || 10 ≤ k.toNat
    | none => false

/-- The offsets whose 32-bit writes are rows of their own: PART_CTL, the four counts, INT_CAUSE and INT_MASK. -/
def hasOwnRow (offset : BitVec 12) : Bool :=
  [0x004#12, 0x020#12, 0x024#12, 0x028#12, 0x02C#12, 0x030#12, 0x034#12].contains offset

/-- The operands a row admits. -/
def Instr.wf : Instr → Bool
  | .partCtlOtherValue v => !(v == 1#32 || v == 2#32 || v == 3#32)
  | .registerWrite offset size _ => 1 ≤ size && size ≤ 4 && !(size == 4 && hasOwnRow offset)
  | .setupBlockReadDone _ (some bytes) => bytes.length == 128
  | .nop _ r => recordOf 1 r
  | .postRecv _ r => recordOf 2 r
  | .cancelRecv _ r => recordOf 3 r
  | .probe _ r => recordOf 4 r
  | .send _ r => recordOf 5 r
  | .cancelSend _ r => recordOf 6 r
  | .domainOpen _ r => recordOf 7 r
  | .domainClose _ r => recordOf 8 r
  | .stats _ r => recordOf 9 r
  | .unknownKindRequest _ r => recordOfNoKind r
  | .spillFetchDone _ slot => slot.length == 16
  | .sendReadReturn _ bytes => 1 ≤ bytes.length && bytes.length ≤ 256
  | .drainChunkReadReturn _ bytes _ => 1 ≤ bytes.length && bytes.length ≤ 256
  | .powerOn | .start | .stop | .reset | .rqTailWrite _ | .srTailWrite _ | .cqHeadWrite _
  | .erHeadWrite _ | .intCauseWrite _ | .intMaskWrite _ | .msiEnableChange _
  | .setupBlockReadDone _ none | .tick | .receiveDeadlineExpiry _ | .gapTimerExpiry _
  | .contextExpiry _ | .responseTimerExpiry _ | .holdOffExpiry _ | .trainingTimerExpiry _
  | .lossOfSignal _ | .requestTakeStart | .requestReadError _ | .statsCounterRead | .spillFetchStart
  | .spillFetchReadError _ | .frameArrival _ _ | .data _ | .announce _ | .pull _ | .pdata _ | .ack _
  | .refuse _ | .retract _ | .abortToSender _ | .abortToReceiver _ | .trainAck _ | .credit _
  | .train _ | .frameSent _ | .sendReadError _ | .drainStart _ | .drainReadError _ | .pullService
  | .allocationClaim | .noKindFrame _ => true

end Sys2Proof
end

