-- ==== Sys2Proof/Machine/Requests.lean ====
section
/-! DEFINITION. The requests (R165, R166) and the STATS claim (Chapter 10). Each meaning is the return of the
Request Ring read that holds the record. -/

namespace Sys2Proof.Machine

/-- The completion of a NOP (R166). -/
def nopCompletion (r : Request) : Completion :=
  { kind := RequestKind.nop.code, cookie := r.cookie, notify := r.notify }

/-- NOP (R166). -/
def execNop (tag : Nat) (record : Bytes) (s : State) : Result :=
  .next (s.request .nop tag record fun r => .give (nopCompletion r))

/-- POST_RECV (R11 to R14). -/
def execPostRecv (tag : Nat) (record : Bytes) (s : State) : Result :=
  .next (s.request .postRecv tag record .postRecv)

/-- CANCEL_RECV (R15). -/
def execCancelRecv (tag : Nat) (record : Bytes) (s : State) : Result :=
  .next (s.request .cancelRecv tag record .cancelRecv)

/-- PROBE (R16). -/
def execProbe (tag : Nat) (record : Bytes) (s : State) : Result :=
  .next (s.request .probe tag record .probe)

/-- SEND (R31, R115). -/
def execSend (tag : Nat) (record : Bytes) (s : State) : Result :=
  .next (s.request .send tag record .send)

/-- CANCEL_SEND (R132, R133). -/
def execCancelSend (tag : Nat) (record : Bytes) (s : State) : Result :=
  .next (s.request .cancelSend tag record .cancelSend)

/-- DOMAIN_OPEN (R8). -/
def execDomainOpen (tag : Nat) (record : Bytes) (s : State) : Result :=
  .next (s.request .domainOpen tag record .domainOpen)

/-- DOMAIN_CLOSE (R9, R10). -/
def execDomainClose (tag : Nat) (record : Bytes) (s : State) : Result :=
  .next (s.request .domainClose tag record .domainClose)

/-- UNKNOWN_KIND_REQUEST: BAD_REQUEST, detail 1, with the kind byte as read (R165, R167). -/
def execUnknownKindRequest (tag : Nat) (record : Bytes) (s : State) : Result :=
  .next (if s.awaitsRequest tag && recordOfNoKind record then
      s.takeRecord.make [.give (badRequest record 1), .endTake]
    else s)

/-! ### STATS (R198 to R200) -/

/-- A STATS claim begins (R198). -/
def State.beginStats (s : State) (r : Request) : State :=
  s.setCounters { s.counters with
    stats := some { cookie := r.cookie, notify := r.notify, clear := r.clear, address := r.target, values := [] } }

/-- A STATS record is taken: BAD_REQUEST, or the claim begins (R165, R198; log entry 19). -/
def State.takeStats (s : State) (record : Bytes) : State :=
  match requestFault s.setup.nodeId .stats record with
  | some detail => s.make [.give (badRequest record detail), .endTake]
  | none => s.beginStats (parseRequest record)

/-- STATS (R198; log entry 19). -/
def execStats (tag : Nat) (record : Bytes) (s : State) : Result :=
  .next (if s.awaitsRequest tag && record.length == recordLength && byteAt record 0 == RequestKind.stats.code then
      s.takeRecord.takeStats record
    else s)

/-- The 64-byte STATS record (R198). -/
def statsRecord (values : List (BitVec 32)) : Bytes := values.flatMap fun v => leBytes 4 v.toNat

/-- The STATS completion (R198). -/
def StatsClaim.completion (c : StatsClaim) : Completion :=
  { kind := RequestKind.stats.code, cookie := c.cookie, delivered := 64, notify := c.notify }

/-- One counter is read, and set to 0 with CLEAR (R199). -/
def State.readCounter (s : State) (c : StatsClaim) (k : Fin 16) : State × StatsClaim :=
  let v := tabGet s.counters.values k
  let values := if c.clear then tabSet s.counters.values k 0 else s.counters.values
  (s.setCounters { s.counters with values }, { c with values := c.values ++ [v] })

/-- The record is written and the completion given, once all 16 values have been read (R198). -/
def State.endStats (s : State) (c : StatsClaim) : State :=
  ((s.setCounters { s.counters with stats := none }).hostWrite c.address (statsRecord c.values)).make
    [.give c.completion, .endTake]

/-- The next counter of the running STATS claim is read; after the last one the record is written and the completion
given (R198, R199). -/
def State.readNextCounter (s : State) : State :=
  match s.counters.stats with
  | none => s
  | some c =>
    if h : c.values.length < 16 then
      let p := s.readCounter c ⟨c.values.length, h⟩
      if p.2.values.length = 16 then p.1.endStats p.2
      else p.1.setCounters { p.1.counters with stats := some p.2 }
    else s

/-- STATS_COUNTER_READ (R198, R199). -/
def execStatsCounterRead (s : State) : Result := .next (if s.active then s.readNextCounter else s)

end Sys2Proof.Machine
end

