-- ==== Sys2Proof/Machine/Spill.lean ====
section
/-! DEFINITION. Spill Ring fetches (R97 to R101). -/

namespace Sys2Proof.Machine

/-- How many entries the Spill Cache holds with the loaned one and the fetch (R97). -/
def spillCacheSize : Nat := 8

/-- The cached entries and the loaned one. -/
def SpillCache.holds (c : SpillCache) : Nat := c.entries.length + (if c.loan.isSome then 1 else 0)

/-- A fetch can start (R98). -/
def State.fetchReady (s : State) : Bool :=
  s.host.partState == .online && s.spill.fetch == .noFetch && decide (s.spill.holds < spillCacheSize)
    && s.spillPosted

/-- SPILL_FETCH_START (R98; log entry 2). -/
def execSpillFetchStart (s : State) : Result := .next (if s.fetchReady then s.startFetch else s)

/-- The read belongs to the fetch in flight. -/
def State.awaitsSpill (s : State) (tag : Nat) : Bool := s.active && s.spill.fetch == .reading tag

/-- SPILL_FETCH_READ_ERROR (R100, R188). -/
def execSpillFetchReadError (tag : Nat) (s : State) : Result :=
  .next (if s.awaitsSpill tag then s.enterFailed .spillRing else s)

/-- The claim waits for the Spill Cache (R102). -/
def waitsForSpill : List Act → Bool
  | .spillWait _ _ _ _ :: _ => true
  | _ => false

/-- A good entry goes to the waiting claim, on loan, while the part is ONLINE, or to the tail of the cache (R98). -/
def State.keepSpill (s : State) (e : SpillEntry) : State :=
  if s.host.partState == .online && s.claims.waiting.any waitsForSpill then
    s.setSpill { s.spill with loan := some e, fetch := .noFetch }
  else s.setSpill { s.spill with entries := s.spill.entries ++ [e], fetch := .noFetch }

/-- The SPILL_RELEASED completion of a bad entry (R99, R105). -/
def badSpillCompletion (e : SpillEntry) : Completion :=
  { kind := spillReleasedKind, detail := ReleaseCause.badSpill.code, token := some e.token }

/-- The spill head rises and a shadow write follows (R98, R160). -/
def State.takeSlot (s : State) : State :=
  (s.setRing { s.ring with spillHead := s.ring.spillHead + 1 }).shadowWrite

/-- A fetched slot is good or bad (R98, R99). -/
def State.takeSpill (s : State) (slot : Bytes) : State :=
  let e := parseSpill slot
  if badSpill slot then
    (s.setSpill { s.spill with fetch := .returningBad }).make [.give (badSpillCompletion e), .endFetch]
  else (s.keepSpill e).finish

/-- How many bytes a Spill Ring slot has (R171). -/
def spillSlotLength : Nat := 16

/-- SPILL_FETCH_DONE (R98, R99, R102; log entry 20). -/
def execSpillFetchDone (tag : Nat) (slot : Bytes) (s : State) : Result :=
  .next (if s.awaitsSpill tag && slot.length == spillSlotLength then s.takeSlot.takeSpill slot else s)

end Sys2Proof.Machine
end

