-- ==== Sys2Proof/Machine/Timers.lean ====
section
/-! DEFINITION. Timer expiries and loss of signal (R17, R70, R89, R131, R139). A timer runs out when the tick counter
reaches its expiry tick (R192); its claim is made in ONLINE, STOPPING and STOPPED alone (log entries 2, 14). -/

namespace Sys2Proof.Machine

/-- A timer with this expiry tick has run out (R192). -/
def State.due (s : State) (timer : Option Tick) : Bool :=
  s.active &&
    match timer with
    | some t => t ≤ s.host.tick
    | none => false

/-- RECEIVE_DEADLINE_EXPIRY (R17). -/
def execReceiveDeadlineExpiry (entry : Nat) (s : State) : Result :=
  let timer := s.matching.deadline entry
  .next (if s.due timer then s.make [.deadline entry (timer.getD 0)] else s)

/-- GAP_TIMER_EXPIRY (R70). -/
def execGapTimerExpiry (node : Node) (s : State) : Result :=
  let timer := (s.peer node).gapTimer
  .next (if s.due timer then s.make [.gapExpiry node (timer.getD 0)] else s)

/-- The last activity of a context in use. -/
def State.contextActivity (s : State) (c : Fin 64) : Tick :=
  match (s.context c).body.gather with
  | some g => g.lastActivity
  | none => 0

/-- CONTEXT_EXPIRY (R89 to R92). -/
def execContextExpiry (context : Fin 64) (s : State) : Result :=
  .next (if s.due (s.contextDue context) then
      s.make [.contextExpiry context (s.context context).generation (s.contextActivity context)]
    else s)

/-- RESPONSE_TIMER_EXPIRY (R131). -/
def execResponseTimerExpiry (index : Fin 32) (s : State) : Result :=
  let e := s.sendEntry index
  .next (if s.due e.timer then s.make [.responseExpiry index e.generation (e.timer.getD 0)] else s)

/-- HOLD_OFF_EXPIRY: FAULT to TRAINING (R139). -/
def execHoldOffExpiry (lane : Lane) (s : State) : Result :=
  let r := s.lane lane
  .next (if r.state == .fault && s.due r.holdOffTimer then (s.enterTraining lane 8).finish else s)

/-- TRAINING_TIMER_EXPIRY: TRAINING to FAULT (R139, R143). -/
def execTrainingTimerExpiry (lane : Lane) (s : State) : Result :=
  let r := s.lane lane
  .next (if r.state == .training && s.due r.trainingTimer then (s.enterFault lane 4).finish else s)

/-- LOSS_OF_SIGNAL: UP to FAULT; no effect in another state (R139, R143). -/
def execLossOfSignal (lane : Lane) (s : State) : Result :=
  .next (if s.active && s.laneUp lane then (s.enterFault lane 5).finish else s)

end Sys2Proof.Machine
end

