-- ==== Sys2Proof/Machine/Transfers.lean ====
section
/-! DEFINITION. Send buffer reads (R122, R125), drains (R109 to R112), pull service (R76) and allocation (R119). -/

namespace Sys2Proof.Machine

/-- A send buffer read with this number and length is outstanding (log entry 20). -/
def State.awaitsSendRead (s : State) (tag length : Nat) : Bool :=
  s.active &&
    match s.readEntry tag with
    | some i => (s.sendEntry i).piece.readLength tag == some length
    | none => false

/-- SEND_READ_RETURN (R122, R130). -/
def execSendReadReturn (tag : Nat) (bytes : Bytes) (s : State) : Result :=
  .next (if s.awaitsSendRead tag bytes.length then s.make [.readReturn tag bytes] else s)

/-- SEND_READ_ERROR (R125, R130). -/
def execSendReadError (tag : Nat) (s : State) : Result :=
  .next (if s.active && (s.readEntry tag).isSome then s.make [.readError tag] else s)

/-- DRAIN_START (R109; log entries 2, 8). -/
def execDrainStart (reads : Nat) (s : State) : Result :=
  .next (if s.drainReady then s.make [.drainStart reads] else s)

/-- A step of the Data Mover on a slot, and the claim that follows. -/
def State.makeAfter (p : State × List Act) : State := p.1.make p.2

/-- The chunk read with this number is outstanding, for this many bytes (log entry 20). -/
def State.awaitsChunk (s : State) (tag length : Nat) : Bool :=
  s.active &&
    match s.chunkSlot tag with
    | some k =>
      match s.slot k with
      | some d => (d.chunkOf tag).map d.chunkLength == some length
      | none => false
    | none => false

/-- DRAIN_CHUNK_READ_RETURN (R110, R111; log entries 8, 20). -/
def execDrainChunkReadReturn (tag : Nat) (bytes : Bytes) (reads : Nat) (s : State) : Result :=
  .next (if s.awaitsChunk tag bytes.length then State.makeAfter (s.takeChunk tag bytes reads) else s)

/-- DRAIN_READ_ERROR (R112). -/
def execDrainReadError (tag : Nat) (s : State) : Result :=
  .next (if s.active && (s.chunkSlot tag).isSome then State.makeAfter (s.takeChunkError tag) else s)

/-- PULL_SERVICE (R76, R77; log entry 7). -/
def execPullService (s : State) : Result :=
  .next (if s.active && 0 < s.claims.pullClaims then
      (s.setClaims { s.claims with pullClaims := s.claims.pullClaims - 1 }).make [.pullService]
    else s)

/-- ALLOCATION_CLAIM (R119, R121; log entry 7). -/
def execAllocationClaim (s : State) : Result :=
  .next (if s.active && 0 < s.claims.allocationClaims then
      (s.setClaims { s.claims with allocationClaims := s.claims.allocationClaims - 1 }).make [.allocate]
    else s)

end Sys2Proof.Machine
end

