-- ==== Sys2Proof/Machine/Dispatch.lean ====
section
/-! DEFINITION. The command dispatch: one arm per row of spec/opcode_table.json, in the table's order. -/

namespace Sys2Proof.Machine

/-- The effect of a command on everything but the queue. -/
def exec (i : Instr) (s : State) : Host.Outcome State Fault Refusal :=
  match i with
  | .powerOn => Sys2Proof.Machine.execPowerOn s
  | .start => Sys2Proof.Machine.execStart s
  | .stop => Sys2Proof.Machine.execStop s
  | .reset => Sys2Proof.Machine.execReset s
  | .partCtlOtherValue value => Sys2Proof.Machine.execPartCtlOtherValue value s
  | .rqTailWrite value => Sys2Proof.Machine.execRqTailWrite value s
  | .srTailWrite value => Sys2Proof.Machine.execSrTailWrite value s
  | .cqHeadWrite value => Sys2Proof.Machine.execCqHeadWrite value s
  | .erHeadWrite value => Sys2Proof.Machine.execErHeadWrite value s
  | .intCauseWrite value => Sys2Proof.Machine.execIntCauseWrite value s
  | .intMaskWrite value => Sys2Proof.Machine.execIntMaskWrite value s
  | .registerWrite offset size value => Sys2Proof.Machine.execRegisterWrite offset size value s
  | .msiEnableChange enable => Sys2Proof.Machine.execMsiEnableChange enable s
  | .setupBlockReadDone tag reply => Sys2Proof.Machine.execSetupBlockReadDone tag reply s
  | .tick => Sys2Proof.Machine.execTick s
  | .receiveDeadlineExpiry entry => Sys2Proof.Machine.execReceiveDeadlineExpiry entry s
  | .gapTimerExpiry node => Sys2Proof.Machine.execGapTimerExpiry node s
  | .contextExpiry context => Sys2Proof.Machine.execContextExpiry context s
  | .responseTimerExpiry index => Sys2Proof.Machine.execResponseTimerExpiry index s
  | .holdOffExpiry lane => Sys2Proof.Machine.execHoldOffExpiry lane s
  | .trainingTimerExpiry lane => Sys2Proof.Machine.execTrainingTimerExpiry lane s
  | .lossOfSignal lane => Sys2Proof.Machine.execLossOfSignal lane s
  | .requestTakeStart => Sys2Proof.Machine.execRequestTakeStart s
  | .requestReadError tag => Sys2Proof.Machine.execRequestReadError tag s
  | .nop tag record => Sys2Proof.Machine.execNop tag record s
  | .postRecv tag record => Sys2Proof.Machine.execPostRecv tag record s
  | .cancelRecv tag record => Sys2Proof.Machine.execCancelRecv tag record s
  | .probe tag record => Sys2Proof.Machine.execProbe tag record s
  | .send tag record => Sys2Proof.Machine.execSend tag record s
  | .cancelSend tag record => Sys2Proof.Machine.execCancelSend tag record s
  | .domainOpen tag record => Sys2Proof.Machine.execDomainOpen tag record s
  | .domainClose tag record => Sys2Proof.Machine.execDomainClose tag record s
  | .stats tag record => Sys2Proof.Machine.execStats tag record s
  | .statsCounterRead => Sys2Proof.Machine.execStatsCounterRead s
  | .spillFetchStart => Sys2Proof.Machine.execSpillFetchStart s
  | .spillFetchDone tag slot => Sys2Proof.Machine.execSpillFetchDone tag slot s
  | .spillFetchReadError tag => Sys2Proof.Machine.execSpillFetchReadError tag s
  | .frameArrival lane bytes => Sys2Proof.Machine.execFrameArrival lane bytes s
  | .data lane => Sys2Proof.Machine.execData lane s
  | .announce lane => Sys2Proof.Machine.execAnnounce lane s
  | .pull lane => Sys2Proof.Machine.execPull lane s
  | .pdata lane => Sys2Proof.Machine.execPdata lane s
  | .ack lane => Sys2Proof.Machine.execAck lane s
  | .refuse lane => Sys2Proof.Machine.execRefuse lane s
  | .retract lane => Sys2Proof.Machine.execRetract lane s
  | .abortToSender lane => Sys2Proof.Machine.execAbortToSender lane s
  | .abortToReceiver lane => Sys2Proof.Machine.execAbortToReceiver lane s
  | .trainAck lane => Sys2Proof.Machine.execTrainAck lane s
  | .credit lane => Sys2Proof.Machine.execCredit lane s
  | .train lane => Sys2Proof.Machine.execTrain lane s
  | .frameSent lane => Sys2Proof.Machine.execFrameSent lane s
  | .sendReadReturn tag bytes => Sys2Proof.Machine.execSendReadReturn tag bytes s
  | .sendReadError tag => Sys2Proof.Machine.execSendReadError tag s
  | .drainStart reads => Sys2Proof.Machine.execDrainStart reads s
  | .drainChunkReadReturn tag bytes reads => Sys2Proof.Machine.execDrainChunkReadReturn tag bytes reads s
  | .drainReadError tag => Sys2Proof.Machine.execDrainReadError tag s
  | .pullService => Sys2Proof.Machine.execPullService s
  | .allocationClaim => Sys2Proof.Machine.execAllocationClaim s
  | .noKindFrame lane => Sys2Proof.Machine.execNoKindFrame lane s
  | .unknownKindRequest tag record => Sys2Proof.Machine.execUnknownKindRequest tag record s

end Sys2Proof.Machine
end

