-- ==== Sys2Proof/Safety.lean ====
section
/-! DEFINITION. The terms in which statements speak of the part: which blocks of State a command changes, no claim in
progress, the transfers that leave the part in a step, the completions and events a step posts, and what handling a
frame does to its lane. -/

namespace Sys2Proof.Machine

/-! ### Blocks of State -/

/-- The blocks of State that a command may change; the queue of commands is apart. -/
inductive Block where
  | host
  | ring
  | spill
  | matching
  | peers
  | contexts
  | mover
  | sending
  | laneA
  | laneB
  | counters
  | claims
  | outbox
  deriving DecidableEq, Repr

/-- The block of a lane. -/
def blockOf : Lane → Block
  | .a => .laneA
  | .b => .laneB

/-- Two states agree in a block. -/
def State.agrees (s t : State) : Block → Prop
  | .host => t.host = s.host
  | .ring => t.ring = s.ring
  | .spill => t.spill = s.spill
  | .matching => t.matching = s.matching
  | .peers => t.peers = s.peers
  | .contexts => t.contexts = s.contexts
  | .mover => t.mover = s.mover
  | .sending => t.sending = s.sending
  | .laneA => t.laneA = s.laneA
  | .laneB => t.laneB = s.laneB
  | .counters => t.counters = s.counters
  | .claims => t.claims = s.claims
  | .outbox => t.outbox = s.outbox

/-- Every block that is not listed is the same, and so is the queue of commands. -/
def State.changesOnly (s t : State) (blocks : List Block) : Prop :=
  (∀ b, b ∉ blocks → s.agrees t b) ∧ t.pending = s.pending

/-- No claim is in progress: none waits, and no unit is held. -/
def State.calm (s : State) : Prop := s.claims.waiting = [] ∧ s.claims.locks = []

/-! ### What leaves the part -/

/-- What has left the part between two states. -/
def State.left (s t : State) : List Output := t.outbox.drop s.outbox.length

/-- An output that is not a message signalled interrupt. -/
def Output.isTransfer : Output → Bool
  | .interrupt => false
  | _ => true

/-- The writes, reads, frames and cuts that left the part between two states are exactly these, in this order. -/
def State.transfers (s t : State) (os : List Output) : Prop :=
  s.outbox <+: t.outbox ∧ (s.left t).filter Output.isTransfer = os

/-! ### Completions and events (R160, R161, R167, R170, R173 to R175) -/

/-- The Completion Ring has room for `n` more completions and the Completion Holding Queue is empty. -/
def State.roomFor (s : State) (n : Nat) : Prop :=
  s.ring.chq = [] ∧ occupancy s.ring.completionTail s.ring.cqHead + n ≤ s.setup.completionSize
    ∧ s.setup.completionSize ≤ 4096

/-- What leaves the part as completions are written from the completion tail on: each record in its slot with its lap
marker, then a shadow write with the raised tail. -/
def completionOutputs (c : Setup) (r : RingUnit) : List Completion → List Output
  | [] => []
  | x :: xs =>
    let r' := { r with completionTail := r.completionTail + 1 }
    .write (slotAddress c.completionBase r.completionTail c.completionSize 32)
        (x.bytes (lapMarker r.completionTail c.completionSize))
      :: .write c.shadow r'.shadowBytes :: completionOutputs c r' xs

/-- The completion raises COMPLETION: it carries NOTIFY or is a SPILL_RELEASED, of kind 16 and status OK (R105, R173). -/
def Completion.raises (c : Completion) : Bool := c.notify || decide (c.kind = 16 ∧ c.status = .ok)

/-- The causes that completions raise (R173). -/
def completionCause (cs : List Completion) : BitVec 4 := if cs.any Completion.raises then causeCompletion else 0

/-- These completions, and no others, have been written, in this order; nothing else of the Ring Unit or the Host Port
has changed, and nothing else has left the part but message signalled interrupts. -/
def State.posts (s t : State) (cs : List Completion) : Prop :=
  t.ring = { s.ring with completionTail := s.ring.completionTail + BitVec.ofNat 16 cs.length }
    ∧ s.transfers t (completionOutputs s.setup s.ring cs)
    ∧ t.host = { s.host with intCause := s.host.intCause ||| completionCause cs }

/-- The state in which a request record has been taken and its take has ended: the request head has risen and a
shadow write has followed (R162). -/
def State.recordTaken (s : State) : State :=
  let r := { s.ring with requestHead := s.ring.requestHead + 1, take := .noTake }
  { s with ring := r, outbox := s.outbox ++ [.write s.setup.shadow r.shadowBytes] }

/-- The command by which the read of a request record of a kind returns. -/
def RequestKind.command (k : RequestKind) (tag : Nat) (record : Bytes) : Instr :=
  match k with
  | .nop => .nop tag record
  | .postRecv => .postRecv tag record
  | .cancelRecv => .cancelRecv tag record
  | .probe => .probe tag record
  | .send => .send tag record
  | .cancelSend => .cancelSend tag record
  | .domainOpen => .domainOpen tag record
  | .domainClose => .domainClose tag record
  | .stats => .stats tag record

/-- Byte `k` of a record is one that R163 marks zero or R164 marks 0 for the kind; the unused segment slots and bytes 12 to
15 of the used ones are among them (R165, check 4). -/
def unusedByte (kind : RequestKind) (r : Bytes) (k : Nat) : Prop :=
  (k = 3 ∧ kind ∈ [RequestKind.nop, .cancelSend, .stats])
    ∨ (4 ≤ k ∧ k ≤ 5 ∧ kind ∉ [RequestKind.postRecv, .probe, .send]) ∨ (6 ≤ k ∧ k ≤ 7)
    ∨ (16 ≤ k ∧ k ≤ 19 ∧ kind ∉ [RequestKind.postRecv, .probe, .send])
    ∨ (20 ≤ k ∧ k ≤ 23 ∧ kind ∉ [RequestKind.postRecv, .probe])
    ∨ (24 ≤ k ∧ k ≤ 31 ∧ kind ∉ [RequestKind.cancelRecv, .cancelSend, .stats])
    ∨ (32 ≤ k ∧ k ≤ 35 ∧ ¬ (kind = .postRecv ∧ (byteAt r 1).getLsbD 1 = true)) ∨ (36 ≤ k ∧ k ≤ 39)
    ∨ (∃ j, j < 4 ∧ 40 + 16 * j ≤ k ∧ k < 56 + 16 * j ∧ ((byteAt r 2).toNat ≤ j ∨ 52 + 16 * j ≤ k)) ∨ 104 ≤ k

/-- The lengths of the used segments of a record, as many as a record has slots for (R163). -/
def usedLengths (r : Bytes) : List Nat :=
  ((List.range 4).filter fun j => j < (byteAt r 2).toNat).map fun j => leField r (48 + 16 * j) 4

/-- A record of this kind fails the check with this detail code, 2 to 11, in a part with this own node id (R164, R165). -/
def recordFails (own : Node) (kind : RequestKind) (r : Bytes) : Nat → Prop
  | 2 => ∃ k, k < 8 ∧ (byteAt r 1).getLsbD k = true
      ∧ ¬ (k = 0 ∨ (k = 1 ∧ kind = .postRecv) ∨ (k = 2 ∧ kind = .send) ∨ (k = 3 ∧ kind = .stats))
  | 3 =>
    let count := (byteAt r 2).toNat
    if kind = .postRecv then count = 0 ∨ 4 < count else if kind = .send then 4 < count else count ≠ 0
  | 4 => ∃ k, k < 128 ∧ byteAt r k ≠ 0 ∧ unusedByte kind r k
  | 5 => 0 ∈ usedLengths r
  | 6 => 4194304 < (usedLengths r).sum
  | 7 => kind ∉ [RequestKind.nop, .cancelSend, .stats] ∧ 63 < (byteAt r 3).toNat
  | 8 => (kind ∈ [RequestKind.postRecv, .probe] ∧ 255 < leField r 4 2 ∧ leField r 4 2 ≠ 65535)
      ∨ (kind = .send ∧ 255 < leField r 4 2)
  | 9 => kind = .send ∧ leField r 4 2 = own.toNat
  | 10 => kind = .postRecv ∧ (byteAt r 1).getLsbD 1 = true ∧ leField r 32 4 = 0
  | 11 => kind = .stats ∧ leField r 24 8 % 64 ≠ 0
  | _ => False

/-- The read of a request record of this kind, sound by R165, comes back to a part at rest. -/
def State.serves (s : State) (kind : RequestKind) (tag : Nat) (record : Bytes) : Prop :=
  s.calm ∧ s.awaitsRequest tag = true ∧ record.length = recordLength ∧ byteAt record 0 = kind.code
    ∧ requestFault s.setup.nodeId kind record = none

/-- One event has been given: written into the slot of the event tail, with the lost count and the tick, a shadow
write, and the EVENT cause, when the Event Ring has room; else counted lost (R174, R175). -/
def State.reports (s t : State) (e : Event) : Prop :=
  if s.eventRoom then
    let r := { s.ring with lost := 0, eventTail := s.ring.eventTail + 1 }
    t.ring = r ∧ t.counters = s.counters ∧ t.host = { s.host with intCause := s.host.intCause ||| causeEvent }
      ∧ s.transfers t
        [.write (slotAddress s.setup.eventBase s.ring.eventTail s.setup.eventSize 32)
            (e.bytes (lapMarker s.ring.eventTail s.setup.eventSize) s.ring.lost s.host.tick),
          .write s.setup.shadow r.shadowBytes]
  else
    t.ring = { s.ring with lost := if s.ring.lost = 65535 then 65535 else s.ring.lost + 1 }
      ∧ t.counters = (s.count 14 1).counters ∧ t.host = s.host ∧ t.outbox = s.outbox

/-- The resource's refusal is reported: an event while its latch is clear, nothing while it is set; the latch is then
set (R106, R107). -/
def State.exhausts (s t : State) (r : Resource) (node : BitVec 16) (seq : Seq) (domain : Fin 64) : Prop :=
  s.changesOnly t [.ring, .counters, .host, .matching, .outbox] ∧ t.matching = s.matching.setLatch r true ∧
    if s.matching.latch r = true then
      t.ring = s.ring ∧ t.counters = s.counters ∧ t.host = s.host ∧ t.outbox = s.outbox
    else s.reports t
      { kind := .resourceExhausted, node, seq, paramA := r.code, paramB := BitVec.ofNat 32 domain.val }

/-! ### Matching (R6) -/

/-- A receive's selector, tag and ignore mask match a message of its domain: the selector is ANY or the source, and
the tags agree in every bit that the mask does not ignore (R6). -/
def matchesMessage (selector : BitVec 16) (tag mask : BitVec 32) (m : Message) : Prop :=
  (selector = 0xFFFF ∨ selector = m.source.setWidth 16)
    ∧ ∀ k, k < 32 → mask.getLsbD k = false → tag.getLsbD k = m.tag.getLsbD k

/-! ### Entries that are discarded (R9, R28, R105) -/

/-- The spill buffer of a HELD or READY entry goes back in a SPILL_RELEASED completion with this detail (R105). -/
def Entry.released (e : Entry) (detail : BitVec 8) : List Completion :=
  match e.body with
  | .held m | .ready m =>
    m.spill.toList.map fun b =>
      { kind := 16, status := .ok, detail, domain := domainByte e.domain, peer := m.source.setWidth 16, tag := m.tag,
        length := m.length, token := some b.token }
  | _ => []

/-- Of two HELD entries the first comes before the second: by source node, and within one source in sequence order
(R9, step 3). -/
def Entry.before (a b : Entry) : Prop :=
  ∃ x y, a.body = .held x ∧ b.body = .held y ∧
    (x.source.toNat < y.source.toNat
      ∨ (x.source = y.source ∧ 1 ≤ (y.seq - x.seq).toNat ∧ (y.seq - x.seq).toNat < 32768))

/-- The completion of a receive whose message is bound (R26). -/
def Entry.received (e : Entry) (status : Status) : List Completion :=
  match e.body with
  | .bound r m _ =>
    [{ kind := 2, status, rendezvous := decide (m.mode = .rendezvous), domain := domainByte e.domain,
       peer := m.source.setWidth 16, cookie := r.cookie, tag := m.tag,
       delivered := if status = .ok ∨ status = .truncated then min m.length r.total else 0, length := m.length,
       token := m.spill.map (·.token), notify := r.notify }]
  | _ => []

/-! ### Positions of a peer record (R49, R66 to R69) -/

/-- The sequence numbers of the opened positions after `next_seq` that lie less than `n` ahead of it (R49). -/
def PeerRecord.openedBelow (p : PeerRecord) (n : Nat) : List Seq :=
  ((List.range 7).filter fun i => p.ahead.getLsbD i && decide (i + 1 < n)).map fun i =>
    p.nextSeq + BitVec.ofNat 16 (i + 1)

/-- The entries HELD there, in sequence order. -/
def PeerRecord.heldBelow (p : PeerRecord) (n : Nat) : List Nat :=
  (p.openedBelow n).filterMap fun q => (p.held.find? (·.seq = q)).map (·.entry)

/-- From the position `d` ahead of `next_seq` on, `j` positions are opened and the next is not (R66). -/
def PeerRecord.opensRun (p : PeerRecord) (d j : Nat) : Prop :=
  (∀ k, k < j → p.ahead.getLsbD (d + k - 1) = true) ∧ p.ahead.getLsbD (d + j - 1) = false

/-- Between two states `next_seq` of a node has moved by `n` positions: the bitmap has moved with it, the entries HELD at
opened positions have been released one after the other, and the gap timer is armed anew while bits are set
(R49, R66, R67, R69). -/
def State.moves (v u : State) (node : Node) (n : Nat) : Prop :=
  let p := v.peer node
  let w := (p.heldBelow n).foldl State.release v
  u.peers = (v.setPeer node { p with
      nextSeq := p.nextSeq + BitVec.ofNat 16 n, ahead := p.ahead >>> n
      held := p.held.filter fun x => x.seq ∉ p.openedBelow n
      gapTimer := if p.ahead >>> n = 0 then none else some (v.host.tick + BitVec.ofNat 64 v.setup.gapLimit) }).peers
    ∧ u.matching = w.matching ∧ u.contexts = w.contexts ∧ u.mover = w.mover ∧ u.claims = w.claims

/-- A position is open for an opening: the current one, or one to seven ahead whose bit is clear (R60). -/
def PeerRecord.opens (p : PeerRecord) (seq : Seq) : Prop :=
  let k := (seq - p.nextSeq).toNat
  k = 0 ∨ (k ≤ 7 ∧ p.ahead.getLsbD (k - 1) = false)

/-- Between two states the position of a frame's message has been counted as opened: at the current position `next_seq` has
moved past it and past the opened ones that follow; at an ahead position its bit has been set and a disarmed gap timer
armed (R63, R64, R66, R69). -/
def State.passes (v u : State) (f : Frame) : Prop :=
  let p := v.peer f.source
  let k := (f.seq - p.nextSeq).toNat
  (k = 0 → ∀ j, p.opensRun 1 j → v.moves u f.source (1 + j))
    ∧ (k ≠ 0 →
        u.peers = (v.setPeer f.source { p with
            ahead := p.ahead ||| BitVec.twoPow 7 (k - 1)
            gapTimer := if p.gapTimer.isSome then p.gapTimer
              else some (v.host.tick + BitVec.ofNat 64 v.setup.gapLimit) }).peers
          ∧ u.matching = v.matching ∧ u.contexts = v.contexts ∧ u.mover = v.mover ∧ u.claims = v.claims)

/-- The record with a reference to an entry HELD at a position, at its place in sequence order (R68). -/
def PeerRecord.holding (p : PeerRecord) (seq : Seq) (entry : Nat) : PeerRecord :=
  let nearer (x : HeldRef) : Bool := decide ((x.seq - p.nextSeq).toNat < (seq - p.nextSeq).toNat)
  { p with held := p.held.takeWhile nearer ++ { seq, entry } :: p.held.dropWhile nearer }

/-! ### EAGER openings that have been given a context (R19 to R21, R74, R75, R81) -/

/-- The state in which an EAGER opening from lane `l` has been given context `c`, no piece taken yet. -/
def State.givenContext (v : State) (l : Lane) (f : Frame) (c : Fin 64) (target : Target) (limit entry : Nat) : State :=
  v.setContexts
    { table := tabSet v.contexts.table c
        { generation := (v.context c).generation + 1
          body := .filling
            { source := f.source, epoch := f.epoch, seq := f.seq, handle := f.handle, length := f.total.toNat, target,
              writeLimit := limit, entry, truncated := false, lastActivity := v.host.tick, answerLane := l }
            f.tag (domainIndex f.domain) 0 }
      age := v.contexts.age ++ [c] }

/-- The state in which an EAGER opening that has taken an entry is stored in it, with a spill buffer and a context: READY
at the tail of UML from the current position, HELD from an ahead one. -/
def State.keeps (v : State) (l : Lane) (f : Frame) (b : SpillEntry) (c : Fin 64) : State :=
  let p := v.peer f.source
  let d := domainIndex f.domain
  let id := v.matching.nextEntry
  let m : Message :=
    { source := f.source, epoch := f.epoch, seq := f.seq, tag := f.tag, length := f.total.toNat, mode := .eager
      handle := 0, spill := some { token := b.token, address := b.address, fill := .filling }, context := some c, lane := l }
  let w := (v.setMatching { v.matching with
      store := v.matching.store ++ [{ id, domain := d, body := if f.seq = p.nextSeq then .ready m else .held m }]
      uml := if f.seq = p.nextSeq then tabSet v.matching.uml d (tabGet v.matching.uml d ++ [id]) else v.matching.uml
      spillLatch := false, contextLatch := false, nextEntry := id + 1 }).givenContext l f c (.spill b.address)
    v.setup.spillSize id
  if f.seq = p.nextSeq then w else w.setPeer f.source (p.holding f.seq id)

/-- Between two states the opening of a frame from lane `l` has been stored READY in a spill buffer, with a context; the
frame is the first fragment, and its position has been passed with no opened one behind it. The entry has been counted as
taken before (log entry 32). -/
def State.stores (v u : State) (l : Lane) (f : Frame) (b : SpillEntry) (c : Fin 64) : Prop :=
  let d := domainIndex f.domain
  let p := v.peer f.source
  let limit := v.setup.spillSize
  u.matching = { v.matching with
      store := v.matching.store ++
        [{ id := v.matching.nextEntry, domain := d
           body := .ready
             { source := f.source, epoch := f.epoch, seq := f.seq, tag := f.tag, length := f.total.toNat, mode := .eager
               handle := 0, spill := some { token := b.token, address := b.address, fill := .filling }
               context := some c, lane := l } }]
      uml := tabSet v.matching.uml d (tabGet v.matching.uml d ++ [v.matching.nextEntry])
      spillLatch := false, contextLatch := false, nextEntry := v.matching.nextEntry + 1 }
    ∧ u.contexts =
      { table := tabSet v.contexts.table c
          { generation := (v.context c).generation + 1
            body := .filling
              { source := f.source, epoch := f.epoch, seq := f.seq, handle := f.handle, length := f.total.toNat
                target := .spill b.address, writeLimit := limit, entry := v.matching.nextEntry
                truncated := decide (limit - f.offset.toNat < f.payload.length), lastActivity := v.host.tick
                answerLane := l }
              f.tag d (BitVec.twoPow 64 (f.offset.toNat / 256)) }
        age := v.contexts.age.filter (· ≠ c) ++ [c] }
    ∧ u.peers = (v.setPeer f.source { p with nextSeq := p.nextSeq + 1, gapTimer := none }).peers

/-! ### The Host Port (R180, R190) -/

/-- The registers and blocks after power-on or a function reset (R190): `lo`, `hi` and `mask` are what SETUP_ADDR_LO,
SETUP_ADDR_HI and INT_MASK hold. -/
def State.atReset (t : State) (lo hi : BitVec 32) (mask : BitVec 4) : Prop :=
  (t.readRegister 0x000 = 0x2F400001#32 ∧ t.readRegister 0x008 = 0x00011000#32 ∧ t.readRegister 0x010 = lo
      ∧ t.readRegister 0x014 = hi ∧ t.readRegister 0x020 = 0 ∧ t.readRegister 0x024 = 0 ∧ t.readRegister 0x028 = 0
      ∧ t.readRegister 0x02C = 0 ∧ t.readRegister 0x030 = 0 ∧ t.readRegister 0x034 = mask.setWidth 32)
    ∧ t.host.partState = .idle ∧ t.host.setupError = 0 ∧ t.host.lastResult = .accepted
    ∧ t.host.failureCause = .noFailure ∧ t.host.setup = none ∧ t.host.setupRead = none ∧ t.host.tick = 0
    ∧ t.matching.store = [] ∧ t.matching.free = 1024 ∧ (∀ d, t.domain d = { state := .closed, close := none })
    ∧ (∀ n, t.peer n = PeerRecord.reset) ∧ (∀ c, t.context c = { generation := 0, body := .free })
    ∧ t.spill.entries = [] ∧ t.mover.queue = [] ∧ t.sending.backlog = []
    ∧ (∀ i, (t.sendEntry i).state = .free ∧ (t.sendEntry i).generation = 0)
    ∧ (∀ l, t.lane l = LaneRecord.reset) ∧ t.ring.chq = [] ∧ t.ring.lost = 0
    ∧ (t.ring.requestHead = 0 ∧ t.ring.spillHead = 0 ∧ t.ring.completionTail = 0 ∧ t.ring.eventTail = 0)
    ∧ (∀ k, tabGet t.counters.values k = 0)
    ∧ (∀ d, tabGet t.matching.prl d = [] ∧ tabGet t.matching.uml d = []) ∧ t.matching.pullQueue = []
    ∧ t.matching.unexpected = 0 ∧ (∀ r, t.matching.latch r = false) ∧ t.contexts.age = [] ∧ (∀ k, t.slot k = none)
    ∧ t.spill.fetch = .noFetch ∧ t.spill.loan = none
    ∧ (∀ n, t.sendHalf n = { nextSendSeq := 0, sendBase := 0, inFlight := 0 }) ∧ (∀ i, (t.sendEntry i).timer = none)
    ∧ t.ring.take = .noTake ∧ t.counters.stats = none ∧ t.claims.waiting = [] ∧ t.claims.locks = []

/-- A ring size R180 accepts: a power of two from 16 to 4096. -/
def goodRingSize (n : Nat) : Prop := ∃ k, 4 ≤ k ∧ k ≤ 12 ∧ n = 2 ^ k

/-- The Setup Block fails the check with this code, 2 to 8 (R180). -/
def Setup.fails (c : Setup) : Nat → Prop
  | 2 => ∃ n ∈ [c.requestSize, c.spillRingSize, c.completionSize, c.eventSize], ¬ goodRingSize n
  | 3 => (∃ b ∈ [c.requestBase, c.spillBase, c.completionBase, c.eventBase], b.toNat % 4096 ≠ 0)
      ∨ c.shadow.toNat % 32 ≠ 0
  | 4 => c.laneMask.toNat = 0 ∨ 3 < c.laneMask.toNat
  | 5 => c.tickPeriod = 0 ∨ 1000 < c.tickPeriod
  | 6 => c.spillSize < 256 ∨ 16384 < c.spillSize ∨ c.spillSize % 256 ≠ 0
  | 7 => 16384 < c.eagerLimit
  | 8 => 1024 < c.unexpectedLimit ∨ c.ageLimit = 0 ∨ c.gapLimit = 0 ∨ c.responseLimit = 0
  | _ => False

/-- The answer to a Setup Block read is the first to fail the check with this code (R180). -/
def setupRejected (reply : Option Bytes) (code : Nat) : Prop :=
  match reply with
  | none => code = 1
  | some bytes =>
    bytes.length = setupLength ∧ (parseSetup bytes).fails code ∧ ∀ j, j < code → ¬ (parseSetup bytes).fails j

/-- One message signalled interrupt has left the part between two states, or none, as R194 says: it leaves while the
enable is set, when a cause becomes pending or the enable goes from clear to set with a cause pending. -/
def State.interrupts (s t : State) : Prop :=
  let before := s.host.intCause &&& s.host.intMask
  let after := t.host.intCause &&& t.host.intMask
  let sent := t.host.msiEnable = true ∧
    ((∃ k, k < 4 ∧ after.getLsbD k = true ∧ before.getLsbD k = false) ∨ (s.host.msiEnable = false ∧ after ≠ 0))
  (sent → s.left t = [.interrupt]) ∧ (¬ sent → s.left t = [])

/-! ### Send buffer reads (R122) -/

/-- The reads of address ranges as they leave the part, numbered from `tag` on, in the order of the ranges (log entry 35). -/
def readOutputs (tag : Nat) : List (BitVec 64 × Nat) → List Output
  | [] => []
  | (address, length) :: rest => .read tag address length :: readOutputs (tag + 1) rest

/-- The same reads as a piece in preparation holds them, none come back. -/
def readParts (tag : Nat) : List (BitVec 64 × Nat) → List ReadPart
  | [] => []
  | (_, length) :: rest => { tag, length, data := none } :: readParts (tag + 1) rest

/-- The entry prepares the piece of up to 256 bytes at its next offset, of `total` bytes to send (R122). -/
def SendEntry.preparing (e : SendEntry) (total tag : Nat) : SendEntry :=
  let n := min 256 (total - e.nextOffset)
  { e with piece := .reading e.nextOffset (readParts tag (gather e.segments e.nextOffset n)), nextOffset := e.nextOffset + n }

/-- The reads of that piece. -/
def SendEntry.pieceReads (e : SendEntry) (total tag : Nat) : List Output :=
  readOutputs tag (gather e.segments e.nextOffset (min 256 (total - e.nextOffset)))

/-! ### Message bytes in host memory (R84, R122) -/

/-- The host addresses of the message bytes that the segments hold, laid end to end in list order (R84; added modulo 2^64,
log entry 13). -/
def byteAddresses (segments : List Segment) : List (BitVec 64) :=
  segments.flatMap fun g => (List.range g.length).map fun j => g.address + BitVec.ofNat 64 j

/-- The address ranges are one for each segment touched, in list order: none empty, and each within its segment. -/
def splitBySegment (segments ranges : List Segment) : Prop :=
  ∃ pairs : List (Segment × Segment), pairs.map (·.1) = ranges ∧ (pairs.map (·.2)).Sublist segments
    ∧ ∀ x ∈ pairs, ∃ j, x.1.address = x.2.address + BitVec.ofNat 64 j ∧ 0 < x.1.length ∧ j + x.1.length ≤ x.2.length

/-! ### Drains (R110) -/

/-- The drain after `n` further chunk reads, numbered from `tag` on. -/
def Drain.issuing (d : Drain) (tag n : Nat) : Drain :=
  { d with
    nextChunk := d.nextChunk + n
    outstanding := d.outstanding ++ (List.range n).map fun j => { tag := tag + j, chunk := d.nextChunk + j } }

/-- Those reads as they leave the part: chunk `j` is up to 256 bytes of the spill buffer from `256 * j` on. -/
def Drain.chunkReads (d : Drain) (tag n : Nat) : List Output :=
  (List.range n).map fun j =>
    .read (tag + j) (d.address + BitVec.ofNat 64 (256 * (d.nextChunk + j))) (min 256 (d.length - 256 * (d.nextChunk + j)))

/-! ### Frames (R39, R51, R146) -/

/-- The lane's oldest frame is this one, and it passes the checks of R39. -/
def State.accepts (s : State) (l : Lane) (f : Frame) : Prop :=
  s.active = true ∧ (s.lane l).busy = false ∧
    ∃ bytes, (s.lane l).ingress.head? = some bytes ∧ parseFrame bytes = some f ∧ f.wellFormed bytes.length = true
      ∧ f.dest = s.setup.nodeId

/-- The lane's oldest frame comes to a part at rest and passes the epoch check unchanged (R51). -/
def State.carries (s : State) (l : Lane) (f : Frame) : Prop :=
  s.calm ∧ s.accepts l f ∧ (s.peer f.source).epoch = some f.epoch

/-- The state in which the window base of the lane's oldest frame is `next_seq` of its source. A frame's base is tested once
(R54, R56), so a frame that has passed that test goes on as this one does. -/
def State.baseTested (s : State) (l : Lane) (f : Frame) : State :=
  let r := s.lane l
  s.setLane l
    { r with ingress := ({ f with windowBase := (s.peer f.source).nextSeq } : Frame).bytes :: r.ingress.tail }

/-- The command that takes this frame from a lane, by its kind. -/
def Frame.command (f : Frame) (l : Lane) : Instr :=
  match f.kind with
  | .data => .data l
  | .announce => .announce l
  | .pull => .pull l
  | .pdata => .pdata l
  | .ack => .ack l
  | .refuse => .refuse l
  | .retract => .retract l
  | .abort => if f.toReceiver then .abortToReceiver l else .abortToSender l
  | .train => .train l
  | .trainAck => .trainAck l
  | .credit => .credit l

/-- The frame is a message frame, a DATA or an ANNOUNCE. -/
def Frame.isMessage (f : Frame) : Prop := f.kind = .data ∨ f.kind = .announce

/-- The state in which the lane handles its oldest frame, which has passed the checks and is counted (R39, R146). -/
def State.handling (s : State) (l : Lane) : State := (s.beginFrame l).count (acceptedCounter l) 1

/-- The end of a command that handled the lane's oldest frame: the lanes decide, the buffer becomes FREE, and the
command's effect settles (R146, R149, R186); the order is the model's choice (log entries 6, 29
and 36). -/
def State.handled (u : State) (l : Lane) : State := (u.freeIngress l).settled

/-- Between two states a control frame has been placed on the lane chosen for it, or counted dropped when no lane is UP;
the lanes and the counters are else unchanged (R151 to R153). -/
def State.places (s u : State) (nominal : Lane) (f : Frame) : Prop :=
  match s.chooseLane nominal with
  | some l =>
    u.lane l = { s.lane l with queue := (s.lane l).queue ++ [f] } ∧ u.lane l.other = s.lane l.other
      ∧ u.counters = s.counters
  | none => u.laneA = s.laneA ∧ u.laneB = s.laneB ∧ u.counters = (s.count 13 1).counters

/-- The lane chosen for a control frame has room in its queue. -/
def State.placeable (s : State) (nominal : Lane) : Prop :=
  ∀ l, s.chooseLane nominal = some l → s.queueTakes l = true

/-! ### Invariants -/

/-- A lane's credits and buffers are within their bounds (R138, R142, R144, R148, R151). -/
def LaneRecord.bounded (r : LaneRecord) : Prop :=
  r.credits ≤ r.creditLimit ∧ r.creditLimit ≤ 64 ∧ r.ingress.length ≤ 16 ∧ r.queue.length ≤ 32

/-- The Host Port, the lanes and the queues are sound: Setup values are held exactly in ONLINE, STOPPING, STOPPED and FAILED
and pass every check, a Setup Block read is in flight exactly in LOADING, a failure cause stands exactly in FAILED, the lanes are DOWN and
empty and the tick stands at 0 where the part holds no setup, every queue is within its bound, and the backlog's order
numbers differ. -/
def State.sound (s : State) : Prop :=
  let h := s.host
  (h.setup.isSome = true ↔ h.partState ∈ [PartState.online, .stopping, .stopped, .failed])
    ∧ (h.setupRead.isSome = true ↔ h.partState = .loading) ∧ (h.failureCause ≠ .noFailure ↔ h.partState = .failed)
    ∧ (∀ c, h.setup = some c → ∀ code, ¬ c.fails code)
    ∧ h.setupError ≤ 8 ∧ h.setupAddrLo &&& 0x3F#32 = 0 ∧ (h.setup = none → h.tick = 0)
    ∧ (h.partState ∈ [PartState.idle, .loading, .failed] →
        ∀ l, (s.lane l).state = .down ∧ (s.lane l).queue = [] ∧ (s.lane l).transmitter = none)
    ∧ (∀ l, (s.lane l).bounded) ∧ s.ring.chq.length ≤ 16 ∧ s.sending.backlog.length ≤ 64
    ∧ (s.sending.backlog.map (·.order)).Nodup ∧ (∀ b ∈ s.sending.backlog, b.order < s.sending.nextOrder)
    ∧ s.spill.entries.length + s.spill.loan.toList.length + (if s.spill.fetch = .noFetch then 0 else 1) ≤ 8
    ∧ ∀ c, s.counters.stats = some c → c.values.length < 16

/-- The openings in progress that have taken an entry and wait for a spill buffer (R20, R102; log entries 5 and 32). -/
def State.spillWaits (s : State) : List Act :=
  s.claims.waiting.flatten.filter fun a =>
    match a with
    | .spillWait _ _ _ _ => true
    | _ => false

/-- The entry is HELD or READY. -/
def Entry.isUnexpected (e : Entry) : Bool :=
  match e.body with
  | .held _ | .ready _ => true
  | _ => false

/-- A message part that waits has the spill buffer its mode asks for, and a context while that buffer is FILLING
(R2, R20, R25). -/
def Message.stored (m : Message) : Prop :=
  (m.mode = .eager ↔ m.spill.isSome = true)
    ∧ (m.context.isSome = true ↔ m.spill.map (·.fill) = some .filling)

/-- The send window of every destination is sound: each live entry has a sequence number of its own between `send_base` and
`next_send_seq`, at most 8 of them, and the in-flight count is their number (R117, R118); a timer or a pending cancel
stands only at a live entry, the cancel in RETRACTING, and a FREE entry has no piece (R120, R130, R131, R133). -/
def State.windowSound (s : State) : Prop :=
  (∀ d,
      let h := s.sendHalf d
      (h.nextSendSeq - h.sendBase).toNat ≤ 8 ∧ h.inFlight = (s.liveToward d).length
        ∧ ∀ i ∈ s.liveToward d,
          ((s.sendEntry i).seq - h.sendBase).toNat < (h.nextSendSeq - h.sendBase).toNat
            ∧ ∀ j ∈ s.liveToward d, (s.sendEntry i).seq = (s.sendEntry j).seq → i = j)
    ∧ ∀ i,
      let e := s.sendEntry i
      (e.state.live = false → e.timer = none) ∧ (e.cancel.isSome = true ↔ e.state = .retracting)
        ∧ (e.state = .free → e.piece = .noPiece)

/-- The Match Store and what hangs on it are sound: every entry has a number of its own; used and free entries make 1024,
and the unexpected count, within its limit, is that of the HELD and READY ones, with the entries that openings in wait for a
spill buffer have taken counted in both; PRL and UML of a domain hold its POSTED and its READY entries, each once; a held
reference names a HELD entry of that source and sequence, each another one; HELD and READY messages are stored as their mode
asks; a close is pending exactly in a CLOSING domain; the age list holds the contexts in use, each once; and the send
windows are sound. -/
def State.storeSound (s : State) : Prop :=
  let u := s.matching
  (u.store.map (·.id)).Nodup ∧ (∀ e ∈ u.store, e.id < u.nextEntry)
    ∧ u.store.length + u.free + s.spillWaits.length = 1024
    ∧ u.unexpected = (u.store.filter Entry.isUnexpected).length + s.spillWaits.length
    ∧ u.unexpected ≤ s.setup.unexpectedLimit ∧ (s.host.partState ∈ [PartState.idle, .loading] → u.unexpected = 0)
    ∧ (∀ d, (tabGet u.prl d).Nodup ∧ (tabGet u.uml d).Nodup)
    ∧ (∀ d id, id ∈ tabGet u.prl d ↔ ∃ r t, { id, domain := d, body := .posted r t } ∈ u.store)
    ∧ (∀ d id, id ∈ tabGet u.uml d ↔ ∃ m, { id, domain := d, body := .ready m } ∈ u.store)
    ∧ (∀ n, ((s.peer n).held.map (·.entry)).Nodup
        ∧ ∀ x ∈ (s.peer n).held, ∃ d m, { id := x.entry, domain := d, body := .held m } ∈ u.store ∧ m.source = n
            ∧ m.seq = x.seq)
    ∧ (∀ e ∈ u.store, ∀ m, e.body = .held m ∨ e.body = .ready m → m.stored)
    ∧ (∀ l f p a, .spillWait l f p a ∈ s.spillWaits → f.kind ≠ .announce)
    ∧ (∀ d, (s.domain d).close.isSome = true ↔ (s.domain d).state = .closing)
    ∧ s.contexts.age.Nodup ∧ (∀ c, c ∈ s.contexts.age ↔ (s.context c).body ≠ .free) ∧ s.windowSound

end Sys2Proof.Machine
end

