-- ==== Sys2Proof/Certificates/Slice0/Obligations.lean ====
section
/-! DEFINITION. The statements for the provers, chapter by chapter. In those about a command, `u` is the state with
the command's own effect, and `u.settled` (or `u.handled l`, for a command that took the oldest frame of lane `l`) is
`u` after what follows every command: the lanes decide, the buffer of a handled frame becomes FREE, waiting claims go
on and the stopping condition is tested. That this follows within the command, and in this order, is the model's choice
(log entries 6, 29 and 36). The counts of pull service claims and allocation claims are those not yet taken (log entry
7). -/

open Sys2Proof Sys2Proof.Machine

/-! ### The queue of commands -/

/-- A step takes the command at the front of the queue and answers exec's outcome on the rest; on an empty queue the
block idles. The queue is the model's (log entry 1). -/
def Obligations.StepRunsFrontCommand : Prop :=
  (∀ (c : Instr) (rest : List Instr) (s : State), step (s.setPending (c :: rest)) = exec c (s.setPending rest))
    ∧ ∀ s : State, s.pending = [] → step s = .next s

/-! ### Chapter 9: part control -/

/-- R190, R191: the values after power-on and after a function reset, which keeps SETUP_ADDR_LO, SETUP_ADDR_HI and INT_MASK;
PART_ID reads its value in every state; a frame being sent is cut off (R154). That the MSI enable is clear at power-on is the
model's choice (log entry 10), and so is that the queue of commands stays and that no more leaves than what is cut off (log
entry 22). -/
def Obligations.ResetValues : Prop :=
  State.reset.atReset 0 0 0 ∧ (∀ s : State, s.readRegister 0x000 = 0x2F400001#32)
    ∧ ∀ (s : State) (l : Lane), ∃ t t', exec .powerOn s = .next t ∧ exec .reset s = .next t'
      ∧ t.atReset 0 0 0 ∧ t'.atReset s.host.setupAddrLo s.host.setupAddrHi s.host.intMask
      ∧ t.host.msiEnable = false ∧ t'.host.msiEnable = s.host.msiEnable ∧ t.pending = s.pending ∧ t'.pending = s.pending
      ∧ (∀ o ∈ s.left t ++ s.left t', o = .cut .a ∨ o = .cut .b)
      ∧ (.cut l ∈ s.left t' ↔ (s.lane l).transmitter.isSome)

/-- R182 to R184: START in IDLE begins a loading: the Setup Block at the address of SETUP_ADDR_HI and SETUP_ADDR_LO is read
(the number of the read is the model's, log entry 4). START in STOPPED gives a PART_STATE event, raises STATE, and makes
the claims of an entry to ONLINE. -/
def Obligations.StartLoadsOrResumes : Prop :=
  (∀ s : State, s.host.partState = .idle →
    ∃ t, exec .start s = .next t ∧ s.changesOnly t [.host, .outbox, .claims]
      ∧ t.host = { s.host with
          partState := .loading, setupError := 0, lastResult := .accepted,
          setupRead := some { tag := s.claims.nextTag, address := s.host.setupAddrHi ++ s.host.setupAddrLo } }
      ∧ t.claims = { s.claims with nextTag := s.claims.nextTag + 1 }
      ∧ s.left t = [.read s.claims.nextTag (s.host.setupAddrHi ++ s.host.setupAddrLo) 128])
  ∧ ∀ s : State, s.host.partState = .stopped →
    ∃ v u, exec .start s = .next u.settled
      ∧ (s.setHost { s.host with partState := .online, lastResult := .accepted }).reports v
          { kind := .partState, paramA := 2, paramB := 4 }
      ∧ s.changesOnly v [.host, .ring, .counters, .outbox]
      ∧ u.host = { v.host with intCause := v.host.intCause ||| causeState } ∧ v.interrupts u
      ∧ u.claims = { v.claims with
          pullClaims := v.claims.pullClaims + 1, allocationClaims := v.claims.allocationClaims + 1 }
      ∧ v.changesOnly u [.host, .claims, .outbox]

/-- R182 and R185: STOP in ONLINE gives a PART_STATE event and raises no cause; the stopping condition is then tested. -/
def Obligations.StopStops : Prop :=
  ∀ s : State, s.host.partState = .online →
    ∃ u, exec .stop s = .next u.settled
      ∧ (s.setHost { s.host with partState := .stopping, lastResult := .accepted }).reports u
          { kind := .partState, paramA := 3, paramB := 2 }
      ∧ s.changesOnly u [.host, .ring, .counters, .outbox]

/-- R182: a command that the part state, or its value, makes void changes the result field alone. -/
def Obligations.VoidCommandsIgnored : Prop :=
  ∀ (s : State) (c : Instr),
    (c = .start ∧ s.host.partState ∉ [PartState.idle, .stopped]) ∨ (c = .stop ∧ s.host.partState ≠ .online)
      ∨ (∃ v, c = .partCtlOtherValue v ∧ c.wf = true) →
    ∃ t, exec c s = .next t ∧ s.changesOnly t [.host] ∧ t.host = { s.host with lastResult := .ignored }

/-- R183, R180: a Setup Block read answered with an error, or whose block fails a check, ends the loading in IDLE with
the code of the first failed check and raises STATE. -/
def Obligations.SetupBlockRejected : Prop :=
  ∀ (s : State) (tag : Nat) (reply : Option Bytes) (code : Nat),
    s.awaitsSetup tag = true → setupRejected reply code →
    ∃ t, exec (.setupBlockReadDone tag reply) s = .next t ∧ s.changesOnly t [.host, .outbox]
      ∧ t.host = { s.host with
          partState := .idle, setupError := code, setupRead := none, intCause := s.host.intCause ||| causeState }
      ∧ s.interrupts t

/-- R184: a Setup Block that passes every check brings the part ONLINE: values held, counts 0, shadow written, PART_STATE
and two LANE_STATE events at counts 0 to 2, lanes in TRAINING or DISABLED, EVENT and STATE raised. -/
def Obligations.SetupBlockLoads : Prop :=
  ∀ (s : State) (tag : Nat) (bytes : Bytes),
    s.awaitsSetup tag = true → bytes.length = 128 → (∀ j, ¬ (parseSetup bytes).fails j) →
    let c := parseSetup bytes
    let ring (tail : BitVec 16) : RingUnit := { RingUnit.reset with take := s.ring.take, eventTail := tail }
    let lane (l : Lane) (r : LaneRecord) : LaneRecord :=
      if c.laneMask.getLsbD (if l = .a then 0 else 1) then
        { r with state := .training, trainSent := false, trainingTimer := some 64, holdOffTimer := none }
      else { r with state := .disabled }
    let laneEventOf (l : Lane) : Event :=
      { kind := .laneState, node := laneNumber l,
        paramA := if c.laneMask.getLsbD (if l = .a then 0 else 1) then 2 else 0,
        paramB := if c.laneMask.getLsbD (if l = .a then 0 else 1) then 1 else 2 }
    let event (k : Nat) (e : Event) : Output := .write (c.eventBase + BitVec.ofNat 64 (32 * k)) (e.bytes true 0 0)
    ∃ u, exec (.setupBlockReadDone tag (some bytes)) s = .next u.settled
      ∧ s.changesOnly u [.host, .ring, .laneA, .laneB, .claims, .outbox]
      ∧ u.host = { s.host with
          partState := .online, setup := some c, setupRead := none, tick := 0,
          intCause := s.host.intCause ||| causeEvent ||| causeState }
      ∧ u.ring = ring 3 ∧ u.laneA = lane .a s.laneA ∧ u.laneB = lane .b s.laneB
      ∧ u.claims = { s.claims with
          pullClaims := s.claims.pullClaims + 1, allocationClaims := s.claims.allocationClaims + 1 }
      ∧ s.transfers u
        [.write c.shadow (ring 0).shadowBytes,
          event 0 { kind := .partState, paramA := 2, paramB := 1 }, .write c.shadow (ring 1).shadowBytes,
          event 1 (laneEventOf .a), .write c.shadow (ring 2).shadowBytes,
          event 2 (laneEventOf .b), .write c.shadow (ring 3).shadowBytes]

/-- R192: the tick counter advances in ONLINE, STOPPING and STOPPED, and stands in the other states. -/
def Obligations.TickCounts : Prop :=
  ∀ s : State, ∃ t, exec .tick s = .next t ∧ s.changesOnly t [.host]
    ∧ t.host = { s.host with
        tick := if s.host.partState ∈ [PartState.online, .stopping, .stopped] then s.host.tick + 1 else s.host.tick }

/-- R194: a write to INT_CAUSE clears the causes written as 1, one to INT_MASK sets the enables, and a change of the MSI
enable sets it; a RESET leaves that enable; a raised cause is recorded whatever the enable; and a message is sent exactly when
the pending causes gain a member, or the enable goes from clear to set with one pending. -/
def Obligations.InterruptRegisters : Prop :=
  ∀ (s : State) (v : BitVec 32) (e : Bool) (cause : BitVec 4),
    ∃ t t' t'' r, exec (.intCauseWrite v) s = .next t ∧ exec (.intMaskWrite v) s = .next t'
      ∧ exec (.msiEnableChange e) s = .next t'' ∧ exec .reset s = .next r
      ∧ (∀ x ∈ [t, t', t'', s.raise cause], s.changesOnly x [.host, .outbox] ∧ s.interrupts x)
      ∧ t.host = { s.host with intCause := s.host.intCause &&& ~~~(v.extractLsb' 0 4) }
      ∧ t'.host = { s.host with intMask := v.extractLsb' 0 4 } ∧ t''.host = { s.host with msiEnable := e }
      ∧ (s.raise cause).host = { s.host with intCause := s.host.intCause ||| cause }
      ∧ r.host.msiEnable = s.host.msiEnable ∧ .interrupt ∉ s.left r

/-- R177, R178: a write into the register window changes SETUP_ADDR_LO (bits 5 to 0 held at zero) or SETUP_ADDR_HI, or
nothing; the registers whose writes are commands of their own are apart. PART_STATE reads the fields R178 gives it. -/
def Obligations.RegisterWindow : Prop :=
  (∀ (s : State) (offset : BitVec 12) (size : Nat) (v : BitVec 32),
    (Instr.registerWrite offset size v).wf = true →
    ∃ t, exec (.registerWrite offset size v) s = .next t ∧ s.changesOnly t [.host]
      ∧ t.host = { s.host with
          setupAddrLo := if size = 4 ∧ offset = 0x010 then v &&& 0xFFFFFFC0#32 else s.host.setupAddrLo,
          setupAddrHi := if size = 4 ∧ offset = 0x014 then v else s.host.setupAddrHi })
  ∧ ∀ s : State, s.host.setupError ≤ 8 →
    let r := s.readRegister 0x008
    r.extractLsb' 0 3 = BitVec.ofNat 3 s.host.partState.code ∧ r.extractLsb' 4 4 = BitVec.ofNat 4 s.host.setupError
      ∧ r.getLsbD 8 = decide (s.host.lastResult = .ignored)
      ∧ r.extractLsb' 9 2 = BitVec.ofNat 2 s.host.failureCause.code
      ∧ r.extractLsb' 12 3 = BitVec.ofNat 3 s.laneA.state.code
      ∧ r.extractLsb' 16 3 = BitVec.ofNat 3 s.laneB.state.code

/-- R188: a Request Ring or Spill Ring read answered with an error takes the part to FAILED: the cause recorded, FATAL
raised, the lanes DOWN and cleared, everything else as it stood. -/
def Obligations.RingReadErrorsFail : Prop :=
  ∀ (s : State) (tag : Nat) (c : Instr) (k : FailureCause), s.calm →
    (c = .requestReadError tag ∧ s.awaitsRequest tag = true ∧ k = .requestRing)
      ∨ (c = .spillFetchReadError tag ∧ s.awaitsSpill tag = true ∧ k = .spillRing) →
    ∃ t, exec c s = .next t ∧ s.changesOnly t [.host, .laneA, .laneB, .outbox]
      ∧ t.host = { s.host with partState := .failed, failureCause := k, intCause := s.host.intCause ||| causeFatal }
      ∧ (∀ l, t.lane l = { s.lane l with
          state := .down, creditLimit := 0, credits := 0, owed := 0, trainingTimer := none, holdOffTimer := none,
          queue := [], transmitter := none })
      ∧ ∀ o ∈ s.left t, o = .interrupt ∨ ∃ l, o = .cut l ∧ (s.lane l).transmitter.isSome

/-- R188: in FAILED everything the part holds stands, and no transfer is made, until a function reset or power-on. -/
def Obligations.FailedStands : Prop :=
  ∀ (s : State) (c : Instr), s.host.partState = .failed → c.wf = true → c ≠ .reset → c ≠ .powerOn →
    ∃ t, exec c s = .next t ∧ s.changesOnly t [.host, .outbox] ∧ s.transfers t []
      ∧ t.host.partState = .failed ∧ t.host.failureCause = s.host.failureCause ∧ t.host.tick = s.host.tick
      ∧ t.host.setup = s.host.setup

/-! ### Chapter 8: rings -/

/-- R157, R159: a tail write is taken when the occupancy it gives is neither below the present one nor above the ring's
size; else it is ignored and a RING_INDEX_ERROR event is given. In IDLE, LOADING and FAILED it is ignored without one. -/
def Obligations.TailWrites : Prop :=
  (∀ (s : State) (v : BitVec 32), s.active = false →
    exec (.rqTailWrite v) s = .next s ∧ exec (.srTailWrite v) s = .next s)
  ∧ ∀ (s : State) (v : BitVec 32), s.active = true →
    let w := v.extractLsb' 0 16
    (∃ t, exec (.rqTailWrite v) s = .next t ∧
      if (s.ring.rqTail - s.ring.requestHead).toNat ≤ (w - s.ring.requestHead).toNat
          ∧ (w - s.ring.requestHead).toNat ≤ s.setup.requestSize then
        s.changesOnly t [.ring] ∧ t.ring = { s.ring with rqTail := w }
      else
        s.changesOnly t [.ring, .counters, .host, .outbox] ∧ s.reports t
          { kind := .ringIndexError, node := 0, paramA := w.setWidth 32, paramB := s.ring.requestHead.setWidth 32 })
    ∧ ∃ t, exec (.srTailWrite v) s = .next t ∧
      if (s.ring.srTail - s.ring.spillHead).toNat ≤ (w - s.ring.spillHead).toNat
          ∧ (w - s.ring.spillHead).toNat ≤ s.setup.spillRingSize then
        s.changesOnly t [.ring] ∧ t.ring = { s.ring with srTail := w }
      else
        s.changesOnly t [.ring, .counters, .host, .outbox] ∧ s.reports t
          { kind := .ringIndexError, node := 1, paramA := w.setWidth 32, paramB := s.ring.spillHead.setWidth 32 }

/-- R158, R159, R170: a head write is taken when it consumes no more than has been written; a taken CQ_HEAD write drains
the Completion Holding Queue, head first, into the slots it freed; any other is ignored with a RING_INDEX_ERROR event. In
IDLE, LOADING and FAILED both are ignored without one. (What follows the drain within the command, `settled`, is the model's
choice: log entries 6 and 29.) -/
def Obligations.HeadWrites : Prop :=
  (∀ (s : State) (v : BitVec 32), s.active = false →
    exec (.cqHeadWrite v) s = .next s ∧ exec (.erHeadWrite v) s = .next s)
  ∧ ∀ (s : State) (v : BitVec 32), s.active = true →
    let w := v.extractLsb' 0 16
    (∃ t, exec (.erHeadWrite v) s = .next t ∧
      if (w - s.ring.erHead).toNat ≤ (s.ring.eventTail - s.ring.erHead).toNat then
        s.changesOnly t [.ring] ∧ t.ring = { s.ring with erHead := w }
      else
        s.changesOnly t [.ring, .counters, .host, .outbox] ∧ s.reports t
          { kind := .ringIndexError, node := 3, paramA := w.setWidth 32, paramB := s.ring.eventTail.setWidth 32 })
    ∧ ((w - s.ring.cqHead).toNat ≤ (s.ring.completionTail - s.ring.cqHead).toNat → s.setup.completionSize ≤ 4096 →
        let n := min s.ring.chq.length (s.setup.completionSize - (s.ring.completionTail - w).toNat)
        ∃ u, exec (.cqHeadWrite v) s = .next u.settled ∧ s.changesOnly u [.ring, .host, .outbox]
          ∧ (s.setRing { s.ring with cqHead := w, chq := s.ring.chq.drop n }).posts u (s.ring.chq.take n))
    ∧ ((s.ring.completionTail - s.ring.cqHead).toNat < (w - s.ring.cqHead).toNat →
        ∃ t, exec (.cqHeadWrite v) s = .next t ∧ s.changesOnly t [.ring, .counters, .host, .outbox] ∧ s.reports t
          { kind := .ringIndexError, node := 2, paramA := w.setWidth 32,
            paramB := s.ring.completionTail.setWidth 32 })

/-- R162, R98: a request take reads the 128-byte slot of the request head exactly when the part is ONLINE, the CHQ holds
fewer than 16 completions, no take is in progress and the ring holds a request; a spill fetch reads the 16-byte slot of
the spill head exactly when the part is ONLINE, none is in flight, the cache with its loan holds fewer than 8 entries and
the ring holds one. (The numbers of the reads are the model's, log entry 4.) -/
def Obligations.RingReadsStart : Prop :=
  (∀ s : State, ∃ t, exec .requestTakeStart s = .next t ∧
    if s.host.partState = .online ∧ s.ring.chq.length < 16 ∧ s.ring.take = .noTake
        ∧ 1 ≤ (s.ring.rqTail - s.ring.requestHead).toNat then
      s.changesOnly t [.ring, .claims, .outbox] ∧ t.ring = { s.ring with take := .reading s.claims.nextTag }
        ∧ t.claims = { s.claims with nextTag := s.claims.nextTag + 1 }
        ∧ s.left t = [.read s.claims.nextTag
            (s.setup.requestBase + BitVec.ofNat 64 (s.ring.requestHead.toNat % s.setup.requestSize * 128)) 128]
    else t = s)
  ∧ ∀ s : State, ∃ t, exec .spillFetchStart s = .next t ∧
    if s.host.partState = .online ∧ s.spill.fetch = .noFetch
        ∧ s.spill.entries.length + s.spill.loan.toList.length < 8
        ∧ 1 ≤ (s.ring.srTail - s.ring.spillHead).toNat then
      s.changesOnly t [.spill, .claims, .outbox] ∧ t.spill = { s.spill with fetch := .reading s.claims.nextTag }
        ∧ t.claims = { s.claims with nextTag := s.claims.nextTag + 1 }
        ∧ s.left t = [.read s.claims.nextTag
            (s.setup.spillBase + BitVec.ofNat 64 (s.ring.spillHead.toNat % s.setup.spillRingSize * 16)) 16]
    else t = s

/-- R166, R169, R172: a NOP completes OK with its cookie and NOTIFY flag, every other field zero, and changes no state. Its
completion is written; or joins the Completion Holding Queue when that is not empty or the Completion Ring has no room; or,
when the queue holds 16, waits with the take still in progress (as a list of acts: log entry 5). -/
def Obligations.NopCompletes : Prop :=
  ∀ (s : State) (tag : Nat) (record : Bytes), s.serves .nop tag record →
    let c : Completion := { kind := 1, status := .ok, cookie := requestCookie record, notify := (byteAt record 1).getLsbD 0 }
    let taken := s.recordTaken
    (s.roomFor 1 →
      ∃ u, exec (.nop tag record) s = .next u.settled ∧ s.changesOnly u [.ring, .host, .outbox] ∧ taken.posts u [c])
    ∧ (s.ring.chq.length < 16 →
        s.ring.chq ≠ [] ∨ s.setup.completionSize ≤ (s.ring.completionTail - s.ring.cqHead).toNat →
      exec (.nop tag record) s = .next (taken.setRing { taken.ring with chq := s.ring.chq ++ [c] }).settled)
    ∧ (16 ≤ s.ring.chq.length →
      exec (.nop tag record) s = .next
        ((taken.setRing { taken.ring with take := .owned }).setClaims
          { s.claims with waiting := [[.give c, .endTake]] }).settled)

/-- R165: a record that fails a check completes BAD_REQUEST with the detail of its first failed check and the kind byte
as read, and reaches no owner; a record is sound exactly when it fails none. -/
def Obligations.BadRequestsComplete : Prop :=
  (∀ (s : State) (tag : Nat) (record : Bytes) (c : Instr) (detail : BitVec 8),
    s.calm → s.awaitsRequest tag = true → s.roomFor 1 →
    (∃ kind, c = kind.command tag record ∧ record.length = 128 ∧ byteAt record 0 = kind.code
        ∧ recordFails s.setup.nodeId kind record detail.toNat
        ∧ ∀ j, j < detail.toNat → ¬ recordFails s.setup.nodeId kind record j)
      ∨ (c = .unknownKindRequest tag record ∧ c.wf = true ∧ detail = 1) →
    ∃ u, exec c s = .next u.settled ∧ s.changesOnly u [.ring, .host, .outbox]
      ∧ s.recordTaken.posts u
        [{ kind := byteAt record 0, status := .badRequest, detail, cookie := requestCookie record,
           notify := (byteAt record 1).getLsbD 0 }])
  ∧ ∀ (own : Node) (kind : RequestKind) (record : Bytes), record.length = 128 →
    (requestFault own kind record = none ↔ ∀ code, ¬ recordFails own kind record code)

/-! ### Chapter 1: the Match Store -/

/-- R6, R12, R19: a search of UML or PRL finds the first matching entry from the head. R15: the receive a CANCEL_RECV finds
is the oldest POSTED or BOUND one of the domain with the target cookie. R132: the SEND a CANCEL_SEND finds is the oldest with
the target cookie among the backlog and the live Send Table entries. (Age is read off the model's order numbers: log entry
18.) -/
def Obligations.SearchesFindTheirEntry : Prop :=
  (∀ (u : MatchUnit) (d : Fin 64) (selector : BitVec 16) (tag mask : BitVec 32) (m : Message) (id : Nat),
    (u.searchUml d selector tag mask = some (id, m) →
      ∃ before after e, tabGet u.uml d = before ++ id :: after ∧ u.find id = some e ∧ e.body = .ready m
        ∧ matchesMessage selector tag mask m
        ∧ ∀ j ∈ before, ∀ e' m', u.find j = some e' → e'.body = .ready m' → ¬ matchesMessage selector tag mask m')
    ∧ (u.searchUml d selector tag mask = none →
      ∀ j ∈ tabGet u.uml d, ∀ e' m', u.find j = some e' → e'.body = .ready m' → ¬ matchesMessage selector tag mask m')
    ∧ (∀ r, u.searchPrl d m = some (id, r) →
      ∃ before after e deadline, tabGet u.prl d = before ++ id :: after ∧ u.find id = some e
        ∧ e.body = .posted r deadline ∧ matchesMessage r.selector r.tag r.mask m
        ∧ ∀ j ∈ before, ∀ e' r' dl, u.find j = some e' → e'.body = .posted r' dl →
            ¬ matchesMessage r'.selector r'.tag r'.mask m)
    ∧ (u.searchPrl d m = none →
      ∀ j ∈ tabGet u.prl d, ∀ e' r' dl, u.find j = some e' → e'.body = .posted r' dl →
        ¬ matchesMessage r'.selector r'.tag r'.mask m))
  ∧ (∀ (u : MatchUnit) (d : Fin 64) (cookie : BitVec 64),
    let named (e : Entry) (x : Receive) : Prop :=
      e ∈ u.store ∧ e.domain = d ∧ e.body.receive = some x ∧ x.cookie = cookie
    (∀ e, u.findReceive d cookie = some e → ∃ x, named e x ∧ ∀ e' x', named e' x' → x.order ≤ x'.order)
      ∧ (u.findReceive d cookie = none → ∀ e x, ¬ named e x))
  ∧ ∀ (s : State) (cookie : BitVec 64),
    let named (x : FoundSend) (order : Nat) : Prop :=
      (∃ b, x = .backlog b ∧ b ∈ s.sending.backlog ∧ b.cookie = cookie ∧ b.order = order)
        ∨ ∃ i, x = .entry i ∧ (s.sendEntry i).state.live = true ∧ (s.sendEntry i).cookie = cookie
          ∧ (s.sendEntry i).order = order
    (∀ x, s.findSend cookie = some x → ∃ n, named x n ∧ ∀ y k, named y k → n ≤ k)
      ∧ (s.findSend cookie = none → ∀ y k, ¬ named y k)

/-- R8: DOMAIN_OPEN opens a CLOSED domain; it completes OK, ALREADY_OPEN or DOMAIN_BUSY. -/
def Obligations.DomainOpens : Prop :=
  ∀ (s : State) (tag : Nat) (record : Bytes), s.serves .domainOpen tag record → s.roomFor 1 →
    let r := parseRequest record
    let state := (s.domain r.domain).state
    ∃ u, exec (.domainOpen tag record) s = .next u.settled ∧ s.changesOnly u [.ring, .host, .outbox, .matching]
      ∧ u.matching =
        (if state = .closed then
          { s.matching with domains := tabSet s.matching.domains r.domain { state := .opened, close := none } }
        else s.matching)
      ∧ s.recordTaken.posts u
        [{ kind := 7, domain := domainByte r.domain, cookie := r.cookie, notify := r.notify,
           status := if state = .closed then .ok else if state = .opened then .alreadyOpen else .domainBusy }]

/-- R9, R10, R94: DOMAIN_CLOSE of an OPEN domain empties it: its POSTED receives complete CANCELLED in PRL order, its READY
and then its HELD entries are discarded, in UML order and by source and sequence, each with its context freed and its spill
buffer returned CLOSED (R105); the domain becomes CLOSED and the close completes OK when no entry is BOUND, else it stays
CLOSING. A domain that is not OPEN gives DOMAIN_NOT_OPEN or DOMAIN_BUSY. -/
def Obligations.DomainCloses : Prop :=
  (∀ (s : State) (tag : Nat) (record : Bytes), s.serves .domainClose tag record → s.roomFor 1 →
    let r := parseRequest record
    (s.domain r.domain).state ≠ .opened →
    ∃ u, exec (.domainClose tag record) s = .next u.settled ∧ s.changesOnly u [.ring, .host, .outbox]
      ∧ s.recordTaken.posts u
        [{ kind := 8, domain := domainByte r.domain, cookie := r.cookie, notify := r.notify,
           status := if (s.domain r.domain).state = .closed then .domainNotOpen else .domainBusy }])
  ∧ ∀ (s : State) (tag : Nat) (record : Bytes) (held : List Entry),
    s.serves .domainClose tag record → s.storeSound →
    let r := parseRequest record
    let d := r.domain
    (s.domain d).state = .opened →
    (∀ e, e ∈ held ↔ e ∈ s.matching.store ∧ e.domain = d ∧ ∃ m, e.body = .held m) → held.Pairwise Entry.before →
    let posted := (tabGet s.matching.prl d).filterMap s.matching.find
    let discarded := (tabGet s.matching.uml d).filterMap s.matching.find ++ held
    let freed := discarded.filterMap fun e => e.body.message.bind (·.context)
    let bound := s.matching.store.any fun e => e.domain == d && e.body.isBound
    let completions : List Completion :=
      posted.flatMap (fun e => e.body.receive.toList.map fun x =>
          { kind := 2, status := .cancelled, domain := domainByte d, peer := x.selector, cookie := x.cookie, tag := x.tag,
            notify := x.notify })
        ++ discarded.flatMap (·.released 2)
        ++ if bound then []
           else [{ kind := 8, status := .ok, domain := domainByte d, cookie := r.cookie, notify := r.notify }]
    s.roomFor completions.length →
    ∃ u, exec (.domainClose tag record) s = .next u.settled
      ∧ s.changesOnly u [.ring, .host, .outbox, .matching, .peers, .contexts, .claims]
      ∧ u.matching = { s.matching with
          store := s.matching.store.filter fun e => e.domain ≠ d ∨ e.body.isBound
          free := s.matching.free + posted.length + discarded.length
          unexpected := s.matching.unexpected - discarded.length
          prl := tabSet s.matching.prl d []
          uml := tabSet s.matching.uml d []
          domains := tabSet s.matching.domains d
            (if bound then { state := .closing, close := some { cookie := r.cookie, notify := r.notify } }
             else { state := .closed, close := none }) }
      ∧ (∀ n, u.peer n = { s.peer n with
          held := (s.peer n).held.filter fun x => ∀ e ∈ held, e.id ≠ x.entry })
      ∧ (∀ c, u.context c = if c ∈ freed then { s.context c with body := .free } else s.context c)
      ∧ u.contexts.age = s.contexts.age.filter (· ∉ freed)
      ∧ u.claims = { s.claims with pullClaims := s.claims.pullClaims + freed.length }
      ∧ s.recordTaken.posts u completions

/-- R12, R13: a POST_RECV in an OPEN domain that matches no READY entry takes a free entry, which becomes POSTED at the
tail of PRL with its deadline; it completes later. The numbers of entries and of postings are the model's (log entry 18). -/
def Obligations.PostRecvPosts : Prop :=
  ∀ (s : State) (tag : Nat) (record : Bytes), s.serves .postRecv tag record →
    let r := parseRequest record
    (s.domain r.domain).state = .opened → s.matching.searchUml r.domain r.peer r.tag r.mask = none →
    s.matching.free ≠ 0 →
    ∃ u, exec (.postRecv tag record) s = .next u.settled ∧ s.changesOnly u [.ring, .matching, .outbox]
      ∧ u.matching = { s.matching with
          store := s.matching.store ++
            [{ id := s.matching.nextEntry, domain := r.domain
               body := .posted
                 { cookie := r.cookie, selector := r.peer, tag := r.tag, mask := r.mask, segments := r.segments,
                   total := r.total, notify := r.notify, order := s.matching.nextPosting }
                 (if r.hasDeadline then some (s.host.tick + r.deadline.setWidth 64) else none) }]
          free := s.matching.free - 1
          prl := tabSet s.matching.prl r.domain (tabGet s.matching.prl r.domain ++ [s.matching.nextEntry])
          poolLatch := false
          nextEntry := s.matching.nextEntry + 1
          nextPosting := s.matching.nextPosting + 1 }
      ∧ s.recordTaken.posts u []

/-- R12, R14: a POST_RECV that matches a READY entry binds the first in UML order: the entry leaves UML, becomes BOUND in
the wait state its message gives, and joins the queue of that state. The numbers of entries and of postings are the model's
(log entry 18). -/
def Obligations.PostRecvBinds : Prop :=
  ∀ (s : State) (tag : Nat) (record : Bytes) (id : Nat) (m : Message), s.serves .postRecv tag record →
    let r := parseRequest record
    (s.domain r.domain).state = .opened → s.matching.searchUml r.domain r.peer r.tag r.mask = some (id, m) →
    let wait : WaitState :=
      if m.mode = .rendezvous then .awaitContext
      else if m.spill = none then .awaitData
      else if m.spill.map (·.fill) = some .complete then .awaitDrain
      else .awaitFill
    let receive : Receive :=
      { cookie := r.cookie, selector := r.peer, tag := r.tag, mask := r.mask, segments := r.segments,
        total := r.total, notify := r.notify, order := s.matching.nextPosting }
    ∃ u, exec (.postRecv tag record) s = .next u.settled
      ∧ s.changesOnly u [.ring, .matching, .mover, .claims, .outbox]
      ∧ u.matching = { s.matching with
          store := s.matching.store.map fun e => if e.id = id then { e with body := .bound receive m wait } else e
          uml := tabSet s.matching.uml r.domain ((tabGet s.matching.uml r.domain).filter (· ≠ id))
          unexpected := s.matching.unexpected - 1
          pullQueue := s.matching.pullQueue ++ if wait = .awaitContext then [id] else []
          nextPosting := s.matching.nextPosting + 1 }
      ∧ u.mover = { s.mover with queue := s.mover.queue ++ if wait = .awaitDrain then [id] else [] }
      ∧ u.claims = { s.claims with
          pullClaims := s.claims.pullClaims + if wait = .awaitContext ∧ s.matching.pullQueue = [] then 1 else 0 }
      ∧ s.recordTaken.posts u []

/-- R11, R13: a POST_RECV in a domain that is not OPEN completes DOMAIN_NOT_OPEN; one that matches nothing and finds the
pool empty completes NO_ENTRY and reports the exhaustion of the pool. -/
def Obligations.PostRecvRefused : Prop :=
  ∀ (s : State) (tag : Nat) (record : Bytes), s.serves .postRecv tag record → s.roomFor 1 →
    let r := parseRequest record
    let completion (status : Status) : Completion :=
      { kind := 2, status, domain := domainByte r.domain, peer := r.peer, cookie := r.cookie, tag := r.tag,
        notify := r.notify }
    ((s.domain r.domain).state ≠ .opened →
      ∃ u, exec (.postRecv tag record) s = .next u.settled ∧ s.changesOnly u [.ring, .host, .outbox]
        ∧ s.recordTaken.posts u [completion .domainNotOpen])
    ∧ ((s.domain r.domain).state = .opened → s.matching.searchUml r.domain r.peer r.tag r.mask = none →
        s.matching.free = 0 →
      ∃ v u, exec (.postRecv tag record) s = .next u.settled
        ∧ s.recordTaken.exhausts v .pool r.peer 0 r.domain
        ∧ v.posts u [completion .noEntry] ∧ v.changesOnly u [.ring, .host, .outbox])

/-- R15: CANCEL_RECV ends the oldest POSTED receive with the target cookie CANCELLED and completes OK; it completes
TOO_LATE for a BOUND one and NOT_FOUND for none. -/
def Obligations.CancelRecvCancels : Prop :=
  ∀ (s : State) (tag : Nat) (record : Bytes), s.serves .cancelRecv tag record → s.roomFor 2 →
    let r := parseRequest record
    let completion (status : Status) : Completion :=
      { kind := 3, status, domain := domainByte r.domain, cookie := r.cookie, notify := r.notify }
    ∃ u, exec (.cancelRecv tag record) s = .next u.settled ∧ s.changesOnly u [.ring, .host, .outbox, .matching]
      ∧ (s.matching.findReceive r.domain r.target = none →
          u.matching = s.matching ∧ s.recordTaken.posts u [completion .notFound])
      ∧ (∀ e x deadline, s.matching.findReceive r.domain r.target = some e → s.matching.find e.id = some e →
          e.domain = r.domain → e.body = .posted x deadline →
          u.matching = { s.matching with
              store := s.matching.store.filter (·.id ≠ e.id)
              free := s.matching.free + 1
              prl := tabSet s.matching.prl r.domain ((tabGet s.matching.prl r.domain).filter (· ≠ e.id)) }
            ∧ s.recordTaken.posts u
              [{ kind := 2, status := .cancelled, domain := domainByte r.domain, peer := x.selector, cookie := x.cookie,
                 tag := x.tag, notify := x.notify }, completion .ok])
      ∧ (∀ e x m wait, s.matching.findReceive r.domain r.target = some e → e.body = .bound x m wait →
          u.matching = s.matching ∧ s.recordTaken.posts u [completion .tooLate])

/-- R11, R16: PROBE completes with what it finds and changes nothing. (That one that completes OK carries the request's
domain is the model's choice, log entry 31.) -/
def Obligations.ProbeReports : Prop :=
  ∀ (s : State) (tag : Nat) (record : Bytes), s.serves .probe tag record → s.roomFor 1 →
    let r := parseRequest record
    let completion : Completion :=
      { kind := 4, domain := domainByte r.domain, cookie := r.cookie, notify := r.notify }
    ∃ u, exec (.probe tag record) s = .next u.settled ∧ s.changesOnly u [.ring, .host, .outbox]
      ∧ ((s.domain r.domain).state ≠ .opened → s.recordTaken.posts u [{ completion with status := .domainNotOpen }])
      ∧ ((s.domain r.domain).state = .opened →
          (s.matching.searchUml r.domain r.peer r.tag r.mask = none →
            s.recordTaken.posts u [{ completion with status := .notFound }])
          ∧ ∀ id m, s.matching.searchUml r.domain r.peer r.tag r.mask = some (id, m) →
            s.recordTaken.posts u
              [{ completion with
                 status := .ok, rendezvous := decide (m.mode = .rendezvous), peer := m.source.setWidth 16,
                 tag := m.tag, length := m.length }])

/-! ### Chapter 6: SEND and CANCEL_SEND -/

/-- R31, R115: a SEND joins the tail of the backlog in the mode its length and FORCE_RDV give, or completes NO_RESOURCE
when the backlog holds 64 entries. The order number of a SEND is the model's (log entry 18). -/
def Obligations.SendJoinsBacklog : Prop :=
  ∀ (s : State) (tag : Nat) (record : Bytes), s.serves .send tag record → s.roomFor 1 →
    let r := parseRequest record
    let mode : Mode := if r.total ≤ s.setup.eagerLimit ∧ r.forceRdv = false then .eager else .rendezvous
    ∃ u, exec (.send tag record) s = .next u.settled ∧ s.changesOnly u [.ring, .host, .outbox, .sending, .claims]
      ∧ if s.sending.backlog.length < 64 then
          u.sending = { s.sending with
              backlog := s.sending.backlog ++
                [{ cookie := r.cookie, dest := r.peer.setWidth 8, domain := r.domain, tag := r.tag,
                   segments := r.segments, length := r.total, notify := r.notify, mode,
                   order := s.sending.nextOrder }]
              nextOrder := s.sending.nextOrder + 1 }
            ∧ u.claims = { s.claims with allocationClaims := s.claims.allocationClaims + 1 }
            ∧ s.recordTaken.posts u []
        else
          u.sending = s.sending ∧ u.claims = s.claims ∧ s.recordTaken.posts u
            [{ kind := 5, status := .noResource, rendezvous := decide (mode = .rendezvous),
               domain := domainByte r.domain, peer := r.peer, cookie := r.cookie, tag := r.tag, length := r.total,
               notify := r.notify }]

/-- R132, R133: CANCEL_SEND, by what it finds (SearchesFindTheirEntry), completes NOT_FOUND; or removes a backlog entry,
whose SEND completes CANCELLED, and completes OK; or turns a WAIT_PULL entry RETRACTING, re-arms its timer and places a
RETRACT, to complete later; or completes TOO_LATE. -/
def Obligations.CancelSendCancels : Prop :=
  ∀ (s : State) (tag : Nat) (record : Bytes), s.serves .cancelSend tag record → s.roomFor 2 →
    let r := parseRequest record
    ∃ u, exec (.cancelSend tag record) s = .next u.settled
      ∧ (s.findSend r.target = none →
          s.changesOnly u [.ring, .host, .outbox] ∧ s.recordTaken.posts u
            [{ kind := 6, status := .notFound, cookie := r.cookie, notify := r.notify }])
      ∧ (∀ b, s.findSend r.target = some (.backlog b) →
          s.changesOnly u [.ring, .host, .outbox, .sending]
            ∧ u.sending = { s.sending with backlog := s.sending.backlog.filter (·.order ≠ b.order) }
            ∧ s.recordTaken.posts u
              [{ kind := 5, status := .cancelled, rendezvous := decide (b.mode = .rendezvous),
                 domain := domainByte b.domain, peer := b.dest.setWidth 16, cookie := b.cookie, tag := b.tag,
                 length := b.length, notify := b.notify },
               { kind := 6, status := .ok, domain := domainByte b.domain, peer := b.dest.setWidth 16,
                 cookie := r.cookie, tag := b.tag, notify := r.notify }])
      ∧ (∀ i, s.findSend r.target = some (.entry i) →
          let e := s.sendEntry i
          (e.state = .waitPull → s.placeable e.announceLane →
            s.changesOnly u [.ring, .outbox, .sending, .laneA, .laneB, .counters]
              ∧ u.sending = (s.setSendEntry i { e with
                  state := .retracting, timer := some (s.host.tick + BitVec.ofNat 64 s.setup.responseLimit)
                  cancel := some { cookie := r.cookie, notify := r.notify } }).sending
              ∧ s.recordTaken.posts u []
              ∧ s.places u e.announceLane
                { kind := .retract, dest := e.dest, source := s.setup.nodeId, epoch := s.setup.epoch, seq := e.seq,
                  handle := makeHandle i e.generation })
          ∧ (e.state ≠ .waitPull →
            s.changesOnly u [.ring, .host, .outbox] ∧ s.recordTaken.posts u
              [{ kind := 6, status := .tooLate, domain := domainByte e.domain, peer := e.dest.setWidth 16,
                 cookie := r.cookie, tag := e.tag, notify := r.notify }]))

/-! ### Chapter 10: STATS -/

/-- R198, R199: a STATS request begins a claim; each counter read takes the next counter as it stands and with CLEAR sets
it to 0; after the sixteenth the 64-byte record is written and the completion given. That each read is a command of its
own is the model's (log entry 19). -/
def Obligations.StatsReadsCounters : Prop :=
  (∀ (s : State) (tag : Nat) (record : Bytes), s.serves .stats tag record →
    let r := parseRequest record
    ∃ t, exec (.stats tag record) s = .next t ∧ s.changesOnly t [.ring, .outbox, .counters]
      ∧ t.ring = { s.ring with requestHead := s.ring.requestHead + 1, take := .owned }
      ∧ s.left t = [.write s.setup.shadow t.ring.shadowBytes]
      ∧ t.counters = { s.counters with
          stats := some { cookie := r.cookie, notify := r.notify, clear := r.clear, address := r.target, values := [] } })
  ∧ ∀ (s : State) (c : StatsClaim) (k : Fin 16), s.active = true → s.counters.stats = some c → c.values.length = k →
    let cleared := if c.clear then tabSet s.counters.values k 0 else s.counters.values
    let values := c.values ++ [tabGet s.counters.values k]
    (k.val < 15 → ∃ t, exec .statsCounterRead s = .next t ∧ s.changesOnly t [.counters]
      ∧ t.counters = { values := cleared, stats := some { c with values } })
    ∧ (k.val = 15 → s.calm → s.roomFor 1 →
        ∃ v u, exec .statsCounterRead s = .next u.settled
          ∧ s.changesOnly v [.counters, .ring, .outbox]
          ∧ v.counters = { values := cleared, stats := none } ∧ v.ring = { s.ring with take := .noTake }
          ∧ s.left v = [.write c.address (values.flatMap fun x => leBytes 4 x.toNat)]
          ∧ v.changesOnly u [.ring, .host, .outbox]
          ∧ v.posts u [{ kind := 9, status := .ok, cookie := c.cookie, delivered := 64, notify := c.notify }])

/-! ### Chapter 5: spill buffers -/

/-- R98, R99, R102, R105: a fetched slot raises the spill head; a good entry goes on loan to an opening that waits for it
in ONLINE (DataOpens), else it joins the cache; a bad one (address no multiple of 256, or a final byte not zero) goes back
in a SPILL_RELEASED completion with detail BAD_SPILL. R20, R22, R102, R103, R106: an opening that waits is then refused,
what it had taken going back: STOPPED out of ONLINE, with no change of the latch; NO_SPILL when the cache and the Spill
Ring are empty; NO_CONTEXT when it has a buffer but finds no context. Its position is passed as that of any refused
opening. It waits on when another fetch can start, whose read has the model's number (log entry 4). (The lanes decide first,
`egress`: log entry 36. A waiting opening is a list of acts, in this order with the lanes' decisions: log entries 5, 6 and
32.) -/
def Obligations.SpillFetchReturns : Prop :=
  (∀ (s : State) (tag : Nat) (slot : Bytes), s.awaitsSpill tag = true → slot.length = 16 →
    let head := { s.ring with spillHead := s.ring.spillHead + 1 }
    let address := BitVec.ofNat 64 (leField slot 0 8)
    let token := BitVec.ofNat 32 (leField slot 8 4)
    let bad := address.toNat % 256 ≠ 0 ∨ ∃ b ∈ slice slot 12 4, b ≠ 0
    let waits (acts : List Act) : Prop := ∃ l f ahead advanced, acts.head? = some (.spillWait l f ahead advanced)
    let waited := s.host.partState = .online ∧ ∃ acts ∈ s.claims.waiting, waits acts
    let taken := (s.setRing head).setOutbox (s.outbox ++ [.write s.setup.shadow head.shadowBytes])
    (¬ bad → ¬ waited → exec (.spillFetchDone tag slot) s = .next (taken.setSpill
      { s.spill with entries := s.spill.entries ++ [{ address, token }], fetch := .noFetch }).settled)
    ∧ (¬ bad → waited → exec (.spillFetchDone tag slot) s = .next (taken.setSpill
      { s.spill with loan := some { address, token }, fetch := .noFetch }).settled)
    ∧ (bad → (∀ acts ∈ s.claims.waiting, waits acts) → s.roomFor 1 →
      ∃ u, exec (.spillFetchDone tag slot) s = .next u.settled ∧ taken.changesOnly u [.spill, .ring, .host, .outbox]
        ∧ u.spill = { s.spill with fetch := .noFetch }
        ∧ taken.posts u [{ kind := 16, status := .ok, detail := 1, token := some token }]))
  ∧ ∀ (u : State) (l : Lane) (f : Frame) (advanced : Bool),
    let x := u.egress
    let ahead := decide (f.seq ≠ (u.peer f.source).nextSeq)
    let done := x.setClaims { x.claims with waiting := [], locks := [] }
    let back (w : State) : State :=
      w.setMatching { w.matching with free := w.matching.free + 1, unexpected := w.matching.unexpected - 1 }
    let refuse (reason : BitVec 8) : Frame :=
      { kind := .refuse, dest := f.source, source := u.setup.nodeId, epoch := u.setup.epoch, seq := f.seq,
        handle := f.handle, reason }
    let refused (w : State) (reason : BitVec 8) : Prop :=
      let w' := if ahead && advanced then w.setPeer f.source { w.peer f.source with gapTimer := none } else w
      ∃ t, u.settled = t.handled l
        ∧ w.changesOnly t [.counters, .peers, .laneA, .laneB, .matching, .contexts, .mover, .claims]
        ∧ (w.count 9 1).places t l (refuse reason) ∧ w'.passes t f
    let exhausted (v : State) (r : Resource) (reason : BitVec 8) : Prop :=
      ∃ w, v.exhausts w r (f.source.setWidth 16) f.seq (domainIndex f.domain)
        ∧ refused (back w) reason
    u.claims.waiting = [[.spillWait l f ahead advanced]] → u.claims.locks = [.matchUnit, .record f.source] →
    f.kind = .data → (u.peer f.source).opens f.seq → x.placeable l →
    (u.host.partState ≠ .online → u.spill.loan = none → u.spill.fetch = .noFetch → refused (back done) 5)
    ∧ (u.host.partState = .online → u.spill.loan = none → u.spill.fetch = .noFetch → u.spill.entries = [] →
      (u.ring.srTail = u.ring.spillHead → exhausted done .spill 1)
      ∧ (u.ring.srTail ≠ u.ring.spillHead →
        ∃ t, u.settled = t.settled ∧ x.changesOnly t [.claims, .spill, .outbox]
          ∧ t.spill = { u.spill with fetch := .reading x.claims.nextTag }
          ∧ t.claims = { x.claims with nextTag := x.claims.nextTag + 1 }
          ∧ x.transfers t [.read x.claims.nextTag
              (u.setup.spillBase + BitVec.ofNat 64 (u.ring.spillHead.toNat % u.setup.spillRingSize * 16)) 16]))
    ∧ (u.host.partState = .online → ∀ b, u.spill.loan = some b → (∀ c, (u.context c).body ≠ .free) →
      exhausted ((done.setSpill { u.spill with entries := b :: u.spill.entries, loan := none }).setMatching
        { x.matching with spillLatch := false }) .context 3)

/-! ### Chapters 2 and 7: frames and lanes -/

/-- R36, R144: a frame at a receiver that takes frames joins the ingress buffers; one that fails its CRC is counted and
its buffer is owed at once; one that finds the 16 buffers in use takes the lane to FAULT. A receiver that takes none (not UP, nor
in TRAINING with the TRAIN sent) discards it, and nothing changes. R149, R141: when a frame has left the lane the
transmitter is idle, and a TRAIN that has left is remembered. -/
def Obligations.FramesArriveAndLeave : Prop :=
  (∀ (s : State) (l : Lane) (bytes : Bytes), s.active = true → (s.lane l).receiving = true →
    let r := s.lane l
    let crc : Fin 16 := if l = .a then 2 else 3
    ∃ u, exec (.frameArrival l bytes) s = .next u.settled
      ∧ (r.ingress.length < 16 → crcGood bytes = true →
          s.changesOnly u [blockOf l] ∧ u.lane l = { r with ingress := r.ingress ++ [bytes] })
      ∧ (r.ingress.length < 16 → crcGood bytes = false →
          s.changesOnly u [blockOf l, .counters] ∧ u.lane l = { r with owed := r.owed + 1 }
            ∧ u.counters = (s.count crc 1).counters)
      ∧ (16 ≤ r.ingress.length → u = s.enterFault l 7))
  ∧ (∀ (s : State) (l : Lane) (bytes : Bytes), (s.lane l).state ≠ .up →
      (s.lane l).state ≠ .training ∨ (s.lane l).trainSent = false → exec (.frameArrival l bytes) s = .next s)
  ∧ ∀ (s : State) (l : Lane) (t : TxFrame), s.active = true → (s.lane l).transmitter = some t →
    ∃ u, exec (.frameSent l) s = .next u.settled ∧ s.changesOnly u [blockOf l, .outbox]
      ∧ u.lane l = { s.lane l with
          transmitter := none, trainSent := (s.lane l).trainSent || decide (t.source = .train) }
      ∧ s.left u = [.frame l t.frame.bytes]

/-- R143, R151: a lane that enters FAULT drops the frames of its queue, one it is sending and those that wait for room, and
counts them; the claims of the waiting ones go on as if their frame had been placed (log entry 5); the lane is cleared, its
hold-off timer is armed for 16 ticks, and a LANE_STATE event is given. -/
def Obligations.FaultClearsLane : Prop :=
  ∀ (s : State) (l : Lane) (cause : BitVec 32), s.active = true →
    let r := s.lane l
    let control := decide (∃ t, r.transmitter = some t ∧ t.source = .control)
    let waits (acts : List Act) : Bool :=
      match acts with
      | .placeOn k _ :: _ => k == l
      | _ => false
    let v := s.count 13 (r.queue.length + (s.claims.waiting.filter waits).length + control.toNat)
    let u := s.enterFault l cause
    s.changesOnly u [blockOf l, .ring, .host, .counters, .outbox, .claims]
      ∧ u.lane l = { r with
          state := .fault, creditLimit := 0, credits := 0, owed := 0, trainingTimer := none,
          holdOffTimer := some (s.host.tick + 16), queue := [], transmitter := none }
      ∧ u.claims = { s.claims with
          waiting := s.claims.waiting.map fun acts => if waits acts then .dropped :: acts.tail else acts }
      ∧ (if r.transmitter.isSome then v.emit (.cut l) else v).reports u
          { kind := .laneState, node := if l = .a then 0 else 1, paramA := 4, paramB := cause }

/-- R34, R39 to R41, R146: a frame of no kind or not well-formed is counted malformed, and one for another node is counted
misrouted; either is dropped and its buffer becomes FREE. -/
def Obligations.LaneChecksDrop : Prop :=
  ∀ (s : State) (l : Lane) (bytes : Bytes) (c : Instr) (counter : Fin 16),
    s.calm → s.active = true → (s.lane l).busy = false → (s.lane l).ingress.head? = some bytes →
    (c = .noKindFrame l ∧ parseFrame bytes = none ∧ counter = 4)
      ∨ (∃ f, parseFrame bytes = some f ∧ c = f.command l
          ∧ ((f.wellFormed bytes.length = false ∧ counter = 4)
            ∨ (f.wellFormed bytes.length = true ∧ f.dest ≠ s.setup.nodeId ∧ counter = 5))) →
    ∃ u, exec c s = .next (u.handled l) ∧ s.changesOnly u [blockOf l, .counters]
      ∧ u.lane l = { s.lane l with busy := true } ∧ u.counters = (s.count counter 1).counters

/-- R142, R148: a TRAIN_ACK brings a lane whose TRAIN has left UP with its credits; a CREDIT in UP adds credits, or takes
the lane to FAULT when it overflows; in any other state they, and every TRAIN, are stale. -/
def Obligations.LaneFramesActOnLane : Prop :=
  ∀ (s : State) (l : Lane) (f : Frame), s.calm → s.accepts l f →
    let h := s.handling l
    let r := h.lane l
    (f.kind = .trainAck →
      ∃ u, exec (.trainAck l) s = .next (u.handled l) ∧
        if r.state = .training ∧ r.trainSent = true then
          h.changesOnly u [blockOf l, .ring, .host, .counters, .outbox]
            ∧ u.lane l = { r with
                state := .up, creditLimit := f.total.toNat, credits := f.total.toNat, trainingTimer := none }
            ∧ h.reports u
              { kind := .laneState, node := if l = .a then 0 else 1, seq := f.total.setWidth 16, paramA := 3,
                paramB := 3 }
        else u = h.stale)
    ∧ (f.kind = .credit →
      ∃ u, exec (.credit l) s = .next (u.handled l) ∧
        if r.state = .up then
          if f.total.toNat ≤ r.creditLimit - r.credits then
            h.changesOnly u [blockOf l] ∧ u.lane l = { r with credits := r.credits + f.total.toNat }
          else u = h.enterFault l 6
        else u = h.stale)
    ∧ (f.kind = .train → exec (.train l) s = .next (h.stale.handled l))

/-- R139, R143: when the hold-off timer of a lane in FAULT runs out it enters TRAINING; when the training timer of a lane
in TRAINING runs out, or a lane UP loses its signal, it enters FAULT. -/
def Obligations.LaneTimersAct : Prop :=
  ∀ (s : State) (l : Lane), s.active = true →
    let r := s.lane l
    (∀ t, r.state = .fault → r.holdOffTimer = some t → t ≤ s.host.tick →
      ∃ u, exec (.holdOffExpiry l) s = .next u.settled
        ∧ s.changesOnly u [blockOf l, .ring, .host, .counters, .outbox]
        ∧ u.lane l = { r with
            state := .training, trainSent := false, trainingTimer := some (s.host.tick + 64), holdOffTimer := none }
        ∧ s.reports u { kind := .laneState, node := if l = .a then 0 else 1, paramA := 2, paramB := 8 })
    ∧ (∀ t, r.state = .training → r.trainingTimer = some t → t ≤ s.host.tick →
      exec (.trainingTimerExpiry l) s = .next (s.enterFault l 4).settled)
    ∧ (r.state = .up → exec (.lossOfSignal l) s = .next (s.enterFault l 5).settled)
    ∧ (r.state ≠ .up → exec (.lossOfSignal l) s = .next s)

/-- R35, R36: a frame with its fields in range is read back as it was sent, and passes the CRC check. -/
def Obligations.FramesReadBack : Prop :=
  ∀ f : Frame, f.payload.length ≤ 256 → parseFrame f.bytes = some f ∧ crcGood f.bytes = true

/-! ### Chapter 3: message frames -/

/-- R51 to R53: a frame that is checked for epoch meets its source's record: an absent epoch is recorded; an older frame is
stale; a newer one clears the record, gives a PEER_RESTART event, has the restart's reports taken one after the other in an
order left free (log entries 9 and 38), and goes on. R55: a message frame that finds its record UNKNOWN sets `next_seq` to
its window base and goes on. R56 to R58, R66: one whose window base is ahead moves `next_seq` there, skipping and counting
the positions not opened, releasing the opened ones and those that follow, and then goes on from there (stated where it
meets no wait for a place or a spill buffer, whose end DataOpens states). R60, R61: a message frame of no context is stale
behind `next_seq` or at an opened position, and beyond the window 8 or more ahead; it is dropped and counted, and beyond
the window reported. -/
def Obligations.StrayFramesDropped : Prop :=
  (∀ (s : State) (l : Lane) (f : Frame), s.calm → s.accepts l f → f.kind ∉ [FrameKind.train, .trainAck, .credit] →
    let p := s.peer f.source
    (p.epoch = none →
      exec (f.command l) s = exec (f.command l) (s.setPeer f.source { p with epoch := some f.epoch }))
    ∧ ∀ e, p.epoch = some e →
      (128 ≤ (f.epoch - e).toNat → exec (f.command l) s = .next ((s.handling l).stale.handled l))
      ∧ (1 ≤ (f.epoch - e).toNat → (f.epoch - e).toNat ≤ 127 →
        let v := s.setPeer f.source { PeerRecord.reset with epoch := some f.epoch }
        let received := v.restartMatch f.source
        let sent := v.restartSend f.source
        s.roomFor (received.2.length + sent.2.length) → received.2.length + sent.2.length ≤ 2048 →
        ∃ r w, v.reports r
            { kind := .peerRestart, node := f.source.setWidth 16, paramA := e.setWidth 32, paramB := f.epoch.setWidth 32 }
          ∧ v.changesOnly r [.ring, .counters, .host, .outbox]
          ∧ r.changesOnly w [.matching, .contexts, .peers, .sending, .claims, .ring, .host, .outbox]
          ∧ w.matching = received.1.matching ∧ w.contexts = received.1.contexts ∧ w.peers = received.1.peers
          ∧ w.sending = sent.1.sending
          ∧ w.claims = { s.claims with
              pullClaims := received.1.claims.pullClaims, allocationClaims := sent.1.claims.allocationClaims
              choices := s.claims.choices + 1 }
          ∧ (r.posts w (received.2 ++ sent.2) ∨ r.posts w (sent.2 ++ received.2))
          ∧ exec (f.command l) s = exec (f.command l) w))
  ∧ ∀ (s : State) (l : Lane) (f : Frame), s.carries l f → f.isMessage →
    let h := s.handling l
    let p := s.peer f.source
    (p.known = false →
      exec (f.command l) s = exec (f.command l) (s.setPeer f.source
        { p with known := true, nextSeq := f.windowBase, ahead := 0, held := [], gapTimer := none }))
    ∧ (p.known = true → s.findFilling f.source f.epoch f.seq = none →
      (32768 ≤ (f.windowBase - p.nextSeq).toNat ∨ f.windowBase = p.nextSeq →
        let d := (f.seq - p.nextSeq).toNat
        (32768 ≤ d ∨ (1 ≤ d ∧ d ≤ 7 ∧ p.ahead.getLsbD (d - 1) = true) →
          exec (f.command l) s = .next (h.stale.handled l))
        ∧ (8 ≤ d → d ≤ 32767 →
            ∃ u, exec (f.command l) s = .next (u.handled l) ∧ h.changesOnly u [.counters, .ring, .host, .outbox]
              ∧ (h.count 7 1).reports u
                { kind := .protocolError, node := f.source.setWidth 16, seq := f.seq, paramA := 1,
                  paramB := p.nextSeq.setWidth 32 }))
      ∧ ∀ d j, d = (f.windowBase - p.nextSeq).toNat → 1 ≤ d → d ≤ 32767 → p.opensRun d j →
        let past := (f.seq - (f.windowBase + BitVec.ofNat 16 j)).toNat
        let skipped := d - (p.openedBelow d).length
        32768 ≤ past ∨ (1 ≤ past ∧ past ≤ 7 ∧ (p.ahead >>> (d + j)).getLsbD (past - 1) = true) →
        ∃ u, exec (f.command l) s = .next (u.handled l)
          ∧ h.changesOnly u [.peers, .matching, .contexts, .mover, .claims, .counters, .ring, .host, .outbox]
          ∧ h.moves u f.source (d + j)
          ∧ ((h.count 11 skipped).count 6 1).reports u
            { kind := .sequenceGap, node := f.source.setWidth 16, seq := p.nextSeq, paramA := BitVec.ofNat 32 skipped,
              paramB := 1 })
    ∧ ∀ d j, p.known = true → s.storeSound → d = (f.windowBase - p.nextSeq).toNat → 1 ≤ d → d ≤ 32767 → p.opensRun d j →
      let skipped := d - (p.openedBelow d).length
      ((f.seq - (f.windowBase + BitVec.ofNat 16 j)).toNat ≤ 7 →
        h.placeable l ∧ (f.kind = .announce ∨ s.spill.entries ≠ []
          ∨ (s.spill.fetch = .noFetch ∧ s.ring.srTail = s.ring.spillHead))) →
      ∃ w, s.changesOnly w [.peers, .matching, .contexts, .mover, .claims, .counters, .ring, .host, .outbox]
        ∧ s.moves w f.source (d + j)
        ∧ (s.count 11 skipped).reports w
          { kind := .sequenceGap, node := f.source.setWidth 16, seq := p.nextSeq, paramA := BitVec.ofNat 32 skipped,
            paramB := 1 }
        ∧ exec (f.command l) s = exec (f.command l) w

/-- R18, R20 to R22, R63 to R66: an opening at `next_seq`, or ahead of it at a position not opened, is refused in a part that
is not ONLINE (STOPPED), of a domain that is not OPEN (DOMAIN_CLOSED), or, matching no receive (an ahead one is not matched),
when it is too long (TOO_LONG): counter 9 rises, a REFUSE is placed, and the position counts as opened: with the releases
that follow, or with its bit set, no reference added and a disarmed gap timer armed. R19, R20, R102, R103, R106, R107: so it
is when it gets no entry (UNEXPECTED_FULL), no spill buffer (NO_SPILL) or no context (NO_CONTEXT); the exhaustion is then
reported unless its latch is set, and what the opening had taken goes back. -/
def Obligations.OpeningsRefused : Prop :=
  ∀ (s : State) (l : Lane) (f : Frame), s.carries l f → f.isMessage →
    let h := s.handling l
    let p := s.peer f.source
    let d := domainIndex f.domain
    let found := if f.seq = p.nextSeq then s.matching.searchPrl d (openedMessage l f) else none
    let refuse (reason : BitVec 8) : Frame :=
      { kind := .refuse, dest := f.source, source := s.setup.nodeId, epoch := s.setup.epoch, seq := f.seq,
        handle := f.handle, reason }
    let fits := found = none ∧ (f.kind = .data → f.total.toNat ≤ s.setup.spillSize)
    let entry := s.matching.unexpected < s.setup.unexpectedLimit ∧ s.matching.free ≠ 0
    p.known = true → 32768 ≤ (f.windowBase - p.nextSeq).toNat ∨ f.windowBase = p.nextSeq → p.opens f.seq →
    s.findFilling f.source f.epoch f.seq = none → h.placeable l →
    (∀ reason : BitVec 8,
      (s.host.partState ≠ .online ∧ reason = 5)
        ∨ (s.host.partState = .online ∧ (s.domain d).state ≠ .opened ∧ reason = 4)
        ∨ (s.host.partState = .online ∧ (s.domain d).state = .opened ∧ f.kind = .data ∧ found = none
            ∧ s.setup.spillSize < f.total.toNat ∧ reason = 7) →
      ∃ u, exec (f.command l) s = .next (u.handled l)
        ∧ h.changesOnly u [.counters, .peers, .laneA, .laneB, .matching, .contexts, .mover, .claims]
        ∧ (h.count 9 1).places u l (refuse reason) ∧ h.passes u f)
    ∧ ∀ (x : Resource) (reason : BitVec 8) (v : State), s.host.partState = .online → (s.domain d).state = .opened →
      (x = .pool ∧ reason = 2 ∧ fits ∧ ¬ entry ∧ v = h)
        ∨ (x = .spill ∧ reason = 1 ∧ fits ∧ entry ∧ f.kind = .data ∧ s.spill.entries = [] ∧ s.spill.fetch = .noFetch
            ∧ s.ring.srTail = s.ring.spillHead ∧ v = h.setMatching { s.matching with poolLatch := false })
        ∨ (x = .context ∧ reason = 3 ∧ fits ∧ entry ∧ f.kind = .data ∧ s.spill.entries ≠ [] ∧ s.spill.loan = none
            ∧ (∀ c, (s.context c).body ≠ .free)
            ∧ v = h.setMatching { s.matching with poolLatch := false, spillLatch := false })
        ∨ (x = .context ∧ reason = 3 ∧ f.kind = .data ∧ found ≠ none ∧ (∀ c, (s.context c).body ≠ .free) ∧ v = h) →
      ∃ w u, v.exhausts w x (f.source.setWidth 16) f.seq d
        ∧ exec (f.command l) s = .next (u.handled l)
        ∧ w.changesOnly u [.counters, .peers, .laneA, .laneB, .matching, .contexts, .mover, .claims]
        ∧ (w.count 9 1).places u l (refuse reason) ∧ w.passes u f

/-- R12, R19, R20, R62, R63, R66: an ANNOUNCE at `next_seq` binds the first matching POSTED receive, which joins the Pull
Queue; with none it is stored READY at the tail of UML; the releases that follow it come after. R21, R64, R68, R69: one ahead
of `next_seq` at a position not opened is stored HELD, its reference joins the held set in sequence order, its bit is set,
and a disarmed gap timer is armed. The numbers of entries are the model's (log entry 18). -/
def Obligations.AnnounceOpens : Prop :=
  ∀ (s : State) (l : Lane) (f : Frame), s.carries l f → f.kind = .announce →
    let h := s.handling l
    let p := s.peer f.source
    let d := domainIndex f.domain
    let m : Message :=
      { source := f.source, epoch := f.epoch, seq := f.seq, tag := f.tag, length := f.total.toNat, mode := .rendezvous,
        handle := f.handle, spill := none, context := none, lane := l }
    p.known = true → 32768 ≤ (f.windowBase - p.nextSeq).toNat ∨ f.windowBase = p.nextSeq →
    s.findFilling f.source f.epoch f.seq = none → s.host.partState = .online → (s.domain d).state = .opened →
    (∀ j, f.seq = p.nextSeq → p.opensRun 1 j →
      (∀ id r, s.matching.searchPrl d m = some (id, r) →
          ∃ u, exec (.announce l) s = .next (u.handled l)
            ∧ h.changesOnly u [.matching, .peers, .claims, .contexts, .mover]
            ∧ ((h.setMatching { s.matching with
                store := s.matching.store.map fun e =>
                  if e.id = id then { e with body := .bound r m .awaitContext } else e
                prl := tabSet s.matching.prl d ((tabGet s.matching.prl d).filter (· ≠ id))
                pullQueue := s.matching.pullQueue ++ [id] }).setClaims { s.claims with
                pullClaims := s.claims.pullClaims + if s.matching.pullQueue = [] then 1 else 0 }).moves u f.source (1 + j))
      ∧ (s.matching.searchPrl d m = none → s.matching.unexpected < s.setup.unexpectedLimit → s.matching.free ≠ 0 →
          ∃ u, exec (.announce l) s = .next (u.handled l)
            ∧ h.changesOnly u [.matching, .peers, .claims, .contexts, .mover]
            ∧ (h.setMatching { s.matching with
                store := s.matching.store ++ [{ id := s.matching.nextEntry, domain := d, body := .ready m }]
                free := s.matching.free - 1
                uml := tabSet s.matching.uml d (tabGet s.matching.uml d ++ [s.matching.nextEntry])
                unexpected := s.matching.unexpected + 1
                poolLatch := false
                nextEntry := s.matching.nextEntry + 1 }).moves u f.source (1 + j)))
    ∧ ∀ k, k = (f.seq - p.nextSeq).toNat → 1 ≤ k → k ≤ 7 → p.ahead.getLsbD (k - 1) = false →
      s.matching.unexpected < s.setup.unexpectedLimit → s.matching.free ≠ 0 →
      let nearer (x : HeldRef) : Bool := decide ((x.seq - p.nextSeq).toNat < k)
      ∃ u, exec (.announce l) s = .next (u.handled l) ∧ h.changesOnly u [.matching, .peers]
        ∧ u.matching = { s.matching with
            store := s.matching.store ++ [{ id := s.matching.nextEntry, domain := d, body := .held m }]
            free := s.matching.free - 1
            unexpected := s.matching.unexpected + 1
            poolLatch := false
            nextEntry := s.matching.nextEntry + 1 }
        ∧ u.peers = (s.setPeer f.source { p with
            ahead := p.ahead ||| BitVec.twoPow 7 (k - 1)
            held := p.held.takeWhile nearer ++ { seq := f.seq, entry := s.matching.nextEntry } :: p.held.dropWhile nearer
            gapTimer := if p.gapTimer.isSome then p.gapTimer
              else some (s.host.tick + BitVec.ofNat 64 s.setup.gapLimit) }).peers

/-! ### Chapter 4: reassembly -/

/-- R79 to R81, R84: a message frame of a FILLING context that disagrees with it is a FRAGMENT_MISMATCH; one whose piece
has been taken is a duplicate; any other is written below the write limit and renews the context. R84: the bytes below the
limit go to the spill buffer in one write, or to the receive segments, laid end to end in list order, in one write for each
segment touched, each byte at its place and ascending; R122: the bytes of a piece are read from the segments by the same
map (its reads ascending too: log entry 35). -/
def Obligations.FragmentsFill : Prop :=
  (∀ (s : State) (l : Lane) (f : Frame) (c : Fin 64) (g : Gather) (tag : BitVec 32) (d : Fin 64) (bitmap : BitVec 64),
    s.carries l f → f.isMessage →
    let h := s.handling l
    let p := s.peer f.source
    let k := f.offset.toNat / 256
    let renewed : Gather := { g with
      lastActivity := s.host.tick, answerLane := l
      truncated := g.truncated || decide (g.writeLimit - f.offset.toNat < f.payload.length) }
    p.known = true → 32768 ≤ (f.windowBase - p.nextSeq).toNat ∨ f.windowBase = p.nextSeq →
    s.findFilling f.source f.epoch f.seq = some c → (s.context c).body = .filling g tag d bitmap →
    (∀ field, mismatch f g tag d = some field →
      ∃ u, exec (f.command l) s = .next (u.handled l) ∧ h.changesOnly u [.counters, .ring, .host, .outbox]
        ∧ (h.count 4 1).reports u
          { kind := .protocolError, node := f.source.setWidth 16, seq := f.seq, paramA := 2, paramB := field })
    ∧ (mismatch f g tag d = none → bitmap.getLsbD k = true →
        exec (f.command l) s = .next ((h.count 8 1).handled l))
    ∧ (mismatch f g tag d = none → bitmap.getLsbD k = false → bitmap ||| BitVec.twoPow 64 k ≠ fullBitmap g.length →
        ∃ u, exec (f.command l) s = .next (u.handled l) ∧ h.changesOnly u [.contexts, .outbox]
          ∧ u.contexts =
            { table := tabSet s.contexts.table c
                { s.context c with body := .filling renewed tag d (bitmap ||| BitVec.twoPow 64 k) }
              age := s.contexts.age.filter (· ≠ c) ++ [c] }
          ∧ h.transfers u ((g.writes f.offset.toNat f.payload).map fun w => .write w.1 w.2)))
  ∧ (∀ (g : Gather) (offset : Nat) (payload : Bytes),
    let accepted := payload.take (g.writeLimit - offset)
    (∀ segments, g.target = .segments segments → g.writes offset payload = scatter segments offset accepted)
      ∧ ∀ address, g.target = .spill address → g.writes offset payload =
          if accepted = [] then [] else [(address + BitVec.ofNat 64 offset, accepted)])
  ∧ ∀ (segments : List Segment) (offset : Nat),
    let places := (byteAddresses segments).drop offset
    let ranges (rs : List (BitVec 64 × Nat)) : List Segment := rs.map fun r => { address := r.1, length := r.2 }
    (∀ bytes : Bytes,
      let written := ranges ((scatter segments offset bytes).map fun w => (w.1, w.2.length))
      byteAddresses written = places.take bytes.length
        ∧ ((scatter segments offset bytes).flatMap fun w => w.2) = bytes.take places.length
        ∧ splitBySegment segments written)
    ∧ ∀ n,
      let read := ranges (gather segments offset n)
      byteAddresses read = places.take n ∧ splitBySegment segments read

/-- R82, R83: the frame that completes a FILLING context places an ACK on its lane and the context becomes FREE; a receive
it served ends as R24 says, and a spill buffer it filled is complete. -/
def Obligations.FragmentsComplete : Prop :=
  ∀ (s : State) (l : Lane) (f : Frame) (c : Fin 64) (g : Gather) (tag : BitVec 32) (d : Fin 64) (bitmap : BitVec 64),
    s.carries l f → f.kind = .data →
    let h := s.handling l
    let p := s.peer f.source
    p.known = true → 32768 ≤ (f.windowBase - p.nextSeq).toNat ∨ f.windowBase = p.nextSeq →
    s.findFilling f.source f.epoch f.seq = some c → (s.context c).body = .filling g tag d bitmap →
    mismatch f g tag d = none → bitmap.getLsbD (f.offset.toNat / 256) = false →
    bitmap ||| BitVec.twoPow 64 (f.offset.toNat / 256) = fullBitmap g.length → h.placeable l → s.roomFor 2 →
    let served : State × List Completion :=
      match g.target with
      | .segments _ => h.deliver g.entry
      | .spill _ => (h.fillComplete g.entry, [])
    let written := (h.hostWrites (g.writes f.offset.toNat f.payload))
    ∃ u, exec (.data l) s = .next (u.handled l)
      ∧ h.changesOnly u [.contexts, .outbox, .matching, .mover, .ring, .host, .claims, .laneA, .laneB, .counters]
      ∧ u.contexts =
        { table := tabSet s.contexts.table c { s.context c with body := .free }, age := s.contexts.age.filter (· ≠ c) }
      ∧ u.claims = { s.claims with pullClaims := s.claims.pullClaims + 1 }
      ∧ u.matching = served.1.matching ∧ u.mover = served.1.mover ∧ written.posts u served.2
      ∧ h.places u l
        { kind := .ack, dest := g.source, source := s.setup.nodeId, epoch := s.setup.epoch, seq := g.seq,
          handle := g.handle }

/-- R24, R10, R26: a BOUND entry that ends leaves the Pull Queue and returns to the pool, its receive completes, and a
CLOSING domain left without a BOUND entry becomes CLOSED and completes its close; one whose data has been delivered ends OK,
or TRUNCATED when the message is longer than the receive. R25, R83: a complete spill buffer is marked so at its entry, which
loses its context; a BOUND one goes on to the Drain Queue. R25, R91: lost data ends a BOUND entry DATA_LOST and removes a HELD
or READY one, its spill buffer returned EXPIRED. R28, R95: a peer restart frees the peer's contexts, ends its BOUND entries
whose data is incomplete PEER_RESTART in posting order, discards its HELD and its incomplete READY entries, and tests the
closes (the order of the closes' completions is the model's, log entry 16). -/
def Obligations.BoundEntriesEnd : Prop :=
  (∀ (s : State) (id : Nat) (d : Fin 64) (r : Receive) (m : Message) (wait : WaitState) (status : Status)
      (detail : BitVec 8), s.matching.find id = some { id, domain := d, body := .bound r m wait } →
      let rest := s.matching.store.filter (·.id ≠ id)
      let closes := (s.domain d).state = .closing ∧ (s.domain d).close.isSome = true
        ∧ ∀ e ∈ rest, e.domain = d → e.body.isBound = false
      let close := (s.domain d).close.getD { cookie := 0, notify := false }
      let p := s.endBound id status detail
      s.changesOnly p.1 [.matching]
        ∧ (closes → p.1.matching = { s.matching with
            store := rest, free := s.matching.free + 1, pullQueue := s.matching.pullQueue.filter (· ≠ id)
            domains := tabSet s.matching.domains d { state := .closed, close := none } })
        ∧ (¬ closes → p.1.matching = { s.matching with
            store := rest, free := s.matching.free + 1, pullQueue := s.matching.pullQueue.filter (· ≠ id) })
        ∧ p.2.head? = some
          { kind := 2, status, detail, rendezvous := decide (m.mode = .rendezvous), domain := domainByte d,
            peer := m.source.setWidth 16, cookie := r.cookie, tag := m.tag,
            delivered := if status = .ok ∨ status = .truncated then min m.length r.total else 0
            length := m.length, token := m.spill.map (·.token), notify := r.notify }
        ∧ (closes → p.2.tail =
            [{ kind := 8, status := .ok, domain := domainByte d, cookie := close.cookie, notify := close.notify }])
        ∧ (¬ closes → p.2.tail = []))
  ∧ (∀ (s : State) (id : Nat) (d : Fin 64) (r : Receive) (m : Message) (wait : WaitState),
    s.matching.find id = some { id, domain := d, body := .bound r m wait } →
    s.deliver id = s.endBound id (if r.total < m.length then .truncated else .ok) 0
      ∧ s.dataLost id = s.endBound id .dataLost 0)
  ∧ (∀ (s : State) (id : Nat) (e : Entry) (m : Message), s.matching.find id = some e →
    let filled : Message := { m with spill := m.spill.map fun b => { b with fill := .complete }, context := none }
    let full := s.fillComplete id
    let lost := s.dataLost id
    let body (b : EntryBody) : List Entry := s.matching.store.map fun x => if x.id = id then { x with body := b } else x
    (e.body = .held m ∨ e.body = .ready m →
      s.changesOnly full [.matching] ∧ full.matching = { s.matching with
        store := body (if e.body = .held m then .held filled else .ready filled) })
    ∧ (∀ r wait, e.body = .bound r m wait →
      s.changesOnly full [.matching, .mover]
        ∧ full.matching = { s.matching with store := body (.bound r filled .awaitDrain) }
        ∧ full.mover = { s.mover with queue := s.mover.queue ++ [id] })
    ∧ (e.body = .held m ∨ e.body = .ready m →
      s.changesOnly lost.1 [.matching, .peers] ∧ lost.2 = e.released 3
        ∧ lost.1.matching.store = s.matching.store.filter (·.id ≠ id) ∧ lost.1.matching.free = s.matching.free + 1
        ∧ lost.1.matching.unexpected = s.matching.unexpected - 1 ∧ lost.1.matching.prl = s.matching.prl
        ∧ lost.1.matching.pullQueue = s.matching.pullQueue ∧ lost.1.matching.domains = s.matching.domains)
    ∧ (e.body = .held m → lost.1.matching.uml = s.matching.uml
        ∧ lost.1.peers = (s.setPeer m.source { s.peer m.source with
            held := (s.peer m.source).held.filter (·.entry ≠ id) }).peers)
    ∧ (e.body = .ready m → lost.1.peers = s.peers
        ∧ lost.1.matching.uml = tabSet s.matching.uml e.domain ((tabGet s.matching.uml e.domain).filter (· ≠ id))))
  ∧ ∀ (s : State) (node : Node) (ended held : List Entry), s.storeSound →
    (∀ e, e ∈ ended ↔ e ∈ s.matching.store ∧ ∃ r m wait, e.body = .bound r m wait ∧ m.source = node
      ∧ wait ∉ [WaitState.awaitDrain, .draining]) → ended.Pairwise (fun a b => a.postingOrder < b.postingOrder) →
    (∀ e, e ∈ held ↔ e ∈ s.matching.store ∧ ∃ m, e.body = .held m ∧ m.source = node) → held.Pairwise Entry.before →
    let incomplete (e : Entry) : Bool :=
      match e.body with
      | .ready m => m.source == node && m.spill.all (·.fill == .filling)
      | _ => false
    let ready := (s.matching.uml.toList.flatten.filterMap s.matching.find).filter incomplete
    let gone := ended ++ held ++ ready
    let closes (d : Fin 64) : Bool := (s.domain d).state == .closing && (s.domain d).close.isSome
      && ended.any (·.domain == d) && !s.matching.store.any fun e => e.domain == d && e.body.isBound && !ended.contains e
    let freed := s.contextsOf node
    let t := s.restartMatch node
    s.changesOnly t.1 [.matching, .peers, .contexts, .claims]
      ∧ (∀ c, c ∈ freed ↔ ∃ g, (s.context c).body.gather = some g ∧ g.source = node)
      ∧ (∀ c, t.1.context c = if c ∈ freed then { s.context c with body := .free } else s.context c)
      ∧ t.1.contexts.age = s.contexts.age.filter (· ∉ freed)
      ∧ t.1.claims = { s.claims with pullClaims := s.claims.pullClaims + if freed = [] then 0 else 1 }
      ∧ t.1.matching.store = s.matching.store.filter (· ∉ gone) ∧ t.1.matching.free = s.matching.free + gone.length
      ∧ t.1.matching.unexpected = s.matching.unexpected - (held ++ ready).length
      ∧ t.1.matching.pullQueue = s.matching.pullQueue.filter (fun id => ∀ e ∈ ended, e.id ≠ id)
      ∧ t.1.matching.prl = s.matching.prl
      ∧ (∀ d, tabGet t.1.matching.uml d = (tabGet s.matching.uml d).filter fun id => ∀ e ∈ ready, e.id ≠ id)
      ∧ (∀ d, t.1.domain d = if closes d then { state := .closed, close := none } else s.domain d)
      ∧ (∀ n, t.1.peer n = { s.peer n with held := (s.peer n).held.filter fun x => ∀ e ∈ held, e.id ≠ x.entry })
      ∧ t.2 = ended.flatMap (·.received .peerRestart) ++ (held ++ ready).flatMap (·.released 4)
          ++ (List.finRange 64).flatMap fun d => if closes d then
              (s.domain d).close.toList.map fun x =>
                { kind := 8, status := .ok, domain := domainByte d, cookie := x.cookie, notify := x.notify }
            else []

/-- R19 to R21, R62 to R64, R66, R68, R74, R75, R81: a DATA that opens a message at `next_seq` and matches a POSTED receive
takes the lowest FREE context and binds the receive; one that matches none, or that opens ahead of `next_seq` at a position
not opened, and finds an entry, a spill buffer at the head of the cache and a context, is stored with them, READY or HELD.
Its position counts as opened, and it goes on as a frame of that context, whose first fragment it is and whose base has
been tested (`baseTested`; FragmentsFill and FragmentsComplete say how; one of one piece finds room for its ACK and
completions); for a current one of more pieces with no opened position behind it the whole effect is said. R102, R103: with
the cache empty it waits for the fetch in flight, or for one it starts, with its entry taken and its units held, and goes
on when a buffer is on loan to it (SpillFetchReturns says when it is refused). (The waiting acts, the units, the read
number and the entry's number are the model's: log entries 4, 5, 6, 18 and 32.) -/
def Obligations.DataOpens : Prop :=
  (∀ (s : State) (l : Lane) (f : Frame) (c : Fin 64), s.carries l f → f.kind = .data →
    let h := s.handling l
    let p := s.peer f.source
    let d := domainIndex f.domain
    let m : Message :=
      { source := f.source, epoch := f.epoch, seq := f.seq, tag := f.tag, length := f.total.toNat, mode := .eager,
        handle := 0, spill := none, context := none, lane := l }
    let ends := 256 < f.total.toNat ∨ (h.placeable l ∧ s.roomFor 2)
    p.known = true → 32768 ≤ (f.windowBase - p.nextSeq).toNat ∨ f.windowBase = p.nextSeq →
    s.findFilling f.source f.epoch f.seq = none → s.host.partState = .online → (s.domain d).state = .opened →
    (s.context c).body = .free → (∀ k, k < c → (s.context k).body ≠ .free) →
    (∀ id r, f.seq = p.nextSeq → s.matching.searchPrl d m = some (id, r) →
      let bound := s.setMatching { s.matching with
        store := s.matching.store.map fun e =>
          if e.id = id then { e with body := .bound r { m with context := some c } .awaitData } else e
        prl := tabSet s.matching.prl d ((tabGet s.matching.prl d).filter (· ≠ id))
        contextLatch := false }
      let g : Gather :=
        { source := f.source, epoch := f.epoch, seq := f.seq, handle := f.handle, length := f.total.toNat,
          target := .segments r.segments, writeLimit := r.total, entry := id
          truncated := decide (r.total - f.offset.toNat < f.payload.length), lastActivity := s.host.tick, answerLane := l }
      (s.storeSound → ends →
        ∃ w, s.changesOnly w [.matching, .peers, .contexts, .mover, .claims]
          ∧ (bound.givenContext l f c (.segments r.segments) r.total id).passes w f
          ∧ exec (.data l) s = exec (.data l) (w.baseTested l f))
      ∧ (p.ahead = 0 → 256 < f.total.toNat →
        ∃ u, exec (.data l) s = .next (u.handled l) ∧ h.changesOnly u [.matching, .peers, .contexts, .outbox]
          ∧ u.contexts =
            { table := tabSet s.contexts.table c
                { generation := (s.context c).generation + 1
                  body := .filling g f.tag d (BitVec.twoPow 64 (f.offset.toNat / 256)) }
              age := s.contexts.age.filter (· ≠ c) ++ [c] }
          ∧ u.matching = bound.matching
          ∧ u.peers = (s.setPeer f.source { p with nextSeq := p.nextSeq + 1, gapTimer := none }).peers
          ∧ h.transfers u ((g.writes f.offset.toNat f.payload).map fun w => .write w.1 w.2)))
    ∧ ∀ b rest, p.opens f.seq → (f.seq = p.nextSeq → s.matching.searchPrl d m = none) →
      f.total.toNat ≤ s.setup.spillSize → s.matching.unexpected < s.setup.unexpectedLimit → s.matching.free ≠ 0 →
      s.spill.entries = b :: rest → s.spill.loan = none →
      let taken := { s.matching with
        free := s.matching.free - 1, unexpected := s.matching.unexpected + 1, poolLatch := false }
      (s.storeSound → ends →
        ∃ w, s.changesOnly w [.matching, .spill, .peers, .contexts, .mover, .claims]
          ∧ w.spill = { s.spill with entries := rest } ∧ ((s.setMatching taken).keeps l f b c).passes w f
          ∧ exec (.data l) s = exec (.data l) (w.baseTested l f))
      ∧ (f.seq = p.nextSeq → p.ahead = 0 → 256 < f.total.toNat →
        ∃ u, exec (.data l) s = .next (u.handled l)
          ∧ h.changesOnly u [.matching, .spill, .peers, .contexts, .outbox]
          ∧ u.spill = { s.spill with entries := rest }
          ∧ (h.setMatching taken).stores u l f b c
          ∧ h.transfers u
            (let bytes := f.payload.take (s.setup.spillSize - f.offset.toNat)
             if bytes = [] then [] else [.write (b.address + BitVec.ofNat 64 f.offset.toNat) bytes])))
  ∧ (∀ (s : State) (l : Lane) (f : Frame), s.carries l f → f.kind = .data →
    let h := s.handling l
    let p := s.peer f.source
    let d := domainIndex f.domain
    p.known = true → 32768 ≤ (f.windowBase - p.nextSeq).toNat ∨ f.windowBase = p.nextSeq → p.opens f.seq →
    s.findFilling f.source f.epoch f.seq = none → s.host.partState = .online → (s.domain d).state = .opened →
    (f.seq = p.nextSeq → s.matching.searchPrl d (openedMessage l f) = none) → f.total.toNat ≤ s.setup.spillSize →
    s.matching.unexpected < s.setup.unexpectedLimit → s.matching.free ≠ 0 → s.spill.entries = [] → s.spill.loan = none →
    let taken := { s.matching with
      free := s.matching.free - 1, unexpected := s.matching.unexpected + 1, poolLatch := false }
    let waits : Claims := { s.claims with
      waiting := [[.spillWait l f (decide (f.seq ≠ p.nextSeq)) false]], locks := [.matchUnit, .record f.source] }
    (s.spill.fetch ≠ .noFetch →
      ∃ u, exec (.data l) s = .next u.settled ∧ h.changesOnly u [.matching, .claims]
        ∧ u.matching = taken ∧ u.claims = waits)
    ∧ (s.spill.fetch = .noFetch → s.ring.srTail ≠ s.ring.spillHead →
      ∃ u, exec (.data l) s = .next u.settled ∧ h.changesOnly u [.matching, .claims, .spill, .outbox]
        ∧ u.matching = taken ∧ u.spill = { s.spill with fetch := .reading s.claims.nextTag }
        ∧ u.claims = { waits with nextTag := s.claims.nextTag + 1 }
        ∧ h.transfers u [.read s.claims.nextTag
            (s.setup.spillBase + BitVec.ofNat 64 (s.ring.spillHead.toNat % s.setup.spillRingSize * 16)) 16]))
  ∧ ∀ (u : State) (l : Lane) (f : Frame) (b : SpillEntry) (c : Fin 64) (advanced : Bool),
    let p := u.peer f.source
    let ahead := decide (f.seq ≠ p.nextSeq)
    let t := u.settled
    u.host.partState = .online → u.claims.waiting = [[.spillWait l f ahead advanced]] →
    u.claims.locks = [.matchUnit, .record f.source] → u.spill.loan = some b → f.kind = .data → p.opens f.seq →
    (u.context c).body = .free → (∀ k, k < c → (u.context k).body ≠ .free) →
    (u.storeSound →
      ∃ w, u.changesOnly w [.matching, .spill, .peers, .contexts, .mover, .claims]
        ∧ (u.keeps l f b c).passes w f ∧ w.spill = { u.spill with loan := none }
        ∧ t = ((if ahead && advanced then
            w.setPeer f.source { w.peer f.source with
              gapTimer := some (u.host.tick + BitVec.ofNat 64 u.setup.gapLimit) }
          else w).setClaims { w.claims with waiting := [[.fragment c l f]], locks := [.context c] }).settled)
    ∧ (f.seq = p.nextSeq → p.ahead = 0 → 256 < f.total.toNat →
      u.stores t l f b c ∧ t.spill = { u.spill with loan := none } ∧ t.claims.waiting = [] ∧ t.claims.locks = [])

/-- R86 to R88: a PDATA at a PULLING context's next offset is written and renews it; the last one places an ACK, frees the
context and ends the receive; a PDATA of no context is stale, one of another total length a FRAGMENT_MISMATCH, and one below
the next offset a duplicate; one above it is a gap: an ABORT(DATA_LOST) is placed, the context becomes FREE and the receive
ends DATA_LOST. -/
def Obligations.PulledDataFills : Prop :=
  ∀ (s : State) (l : Lane) (f : Frame), s.carries l f → f.kind = .pdata →
    let h := s.handling l
    (s.livePull f = none → exec (.pdata l) s = .next (h.stale.handled l))
    ∧ (∀ c g pullLength next, s.livePull f = some (c, g, pullLength, next) → f.total.toNat ≠ pullLength →
      ∃ u, exec (.pdata l) s = .next (u.handled l) ∧ h.changesOnly u [.counters, .ring, .host, .outbox]
        ∧ (h.count 4 1).reports u
          { kind := .protocolError, node := f.source.setWidth 16, seq := g.seq, paramA := 2, paramB := 3 })
    ∧ ∀ c g pullLength next, s.livePull f = some (c, g, pullLength, next) → f.total.toNat = pullLength →
      let renewed : Gather := { g with
        lastActivity := s.host.tick, answerLane := l
        truncated := g.truncated || decide (g.writeLimit - next < f.payload.length) }
      (f.offset.toNat < next → exec (.pdata l) s = .next ((h.count 8 1).handled l))
      ∧ (next < f.offset.toNat → h.placeable l → s.roomFor 2 →
        let lost := h.dataLost g.entry
        ∃ u, exec (.pdata l) s = .next (u.handled l)
          ∧ h.changesOnly u [.contexts, .outbox, .matching, .peers, .ring, .host, .claims, .laneA, .laneB, .counters]
          ∧ u.contexts =
            { table := tabSet s.contexts.table c { s.context c with body := .free }
              age := s.contexts.age.filter (· ≠ c) }
          ∧ u.claims = { s.claims with pullClaims := s.claims.pullClaims + 1 }
          ∧ u.matching = lost.1.matching ∧ u.peers = lost.1.peers ∧ h.posts u lost.2
          ∧ h.places u l
            { kind := .abort, dest := g.source, source := s.setup.nodeId, epoch := s.setup.epoch, seq := g.seq,
              handle := g.handle, reason := 1 })
      ∧ (f.offset.toNat = next → next + f.payloadLength.toNat ≠ pullLength →
        ∃ u, exec (.pdata l) s = .next (u.handled l) ∧ h.changesOnly u [.contexts, .outbox]
          ∧ u.contexts =
            { table := tabSet s.contexts.table c
                { s.context c with body := .pulling renewed pullLength (next + f.payloadLength.toNat) }
              age := s.contexts.age.filter (· ≠ c) ++ [c] }
          ∧ h.transfers u ((g.writes next f.payload).map fun w => .write w.1 w.2))
      ∧ (f.offset.toNat = next → next + f.payloadLength.toNat = pullLength → h.placeable l → s.roomFor 2 →
        (∃ segments, g.target = .segments segments) →
        let ended := h.deliver g.entry
        ∃ u, exec (.pdata l) s = .next (u.handled l)
          ∧ h.changesOnly u [.contexts, .outbox, .matching, .ring, .host, .claims, .laneA, .laneB, .counters]
          ∧ u.contexts =
            { table := tabSet s.contexts.table c { s.context c with body := .free }
              age := s.contexts.age.filter (· ≠ c) }
          ∧ u.claims = { s.claims with pullClaims := s.claims.pullClaims + 1 } ∧ u.matching = ended.1.matching
          ∧ (h.hostWrites (g.writes next f.payload)).posts u ended.2
          ∧ h.places u l
            { kind := .ack, dest := g.source, source := s.setup.nodeId, epoch := s.setup.epoch, seq := g.seq,
              handle := g.handle })

/-- R93: an ABORT toward the receiver frees the PULLING context it names and ends its receive REMOTE_ABORT with the reason;
one that names none is stale. -/
def Obligations.AbortsEndPulls : Prop :=
  ∀ (s : State) (l : Lane) (f : Frame), s.carries l f → f.kind = .abort → f.toReceiver = true →
    let h := s.handling l
    (s.livePull f = none → exec (.abortToReceiver l) s = .next (h.stale.handled l))
    ∧ ∀ c g pullLength next, s.livePull f = some (c, g, pullLength, next) → s.roomFor 2 →
      let ended := h.endBound g.entry .remoteAbort f.reason
      ∃ u, exec (.abortToReceiver l) s = .next (u.handled l)
        ∧ h.changesOnly u [.contexts, .outbox, .matching, .ring, .host, .claims]
        ∧ u.contexts =
          { table := tabSet s.contexts.table c { s.context c with body := .free }, age := s.contexts.age.filter (· ≠ c) }
        ∧ u.claims = { s.claims with pullClaims := s.claims.pullClaims + 1 } ∧ u.matching = ended.1.matching
        ∧ h.posts u ended.2

/-- R27: a RETRACT removes the HELD or READY RENDEZVOUS entry of its message and places an ACK with RETRACTED; one that
finds none changes nothing. R151: while the queue of the chosen lane holds 32 frames the ACK waits, and the Match Unit and the
frame's buffer with it (kept as a list of acts: log entries 5 and 6). -/
def Obligations.RetractsRemove : Prop :=
  ∀ (s : State) (l : Lane) (f : Frame), s.carries l f → f.kind = .retract →
    let h := s.handling l
    (s.matching.findAnnounced f.source f.epoch f.seq = none → exec (.retract l) s = .next (h.handled l))
    ∧ ∀ e, s.matching.findAnnounced f.source f.epoch f.seq = some e →
      let ack : Frame :=
        { kind := .ack, flags := 1, dest := f.source, source := s.setup.nodeId, epoch := s.setup.epoch, seq := f.seq,
          handle := f.handle }
      ∃ u, (h.placeable l → exec (.retract l) s = .next (u.handled l)
          ∧ h.changesOnly u [.matching, .peers, .laneA, .laneB, .counters] ∧ h.places u l ack)
        ∧ (∀ k, h.chooseLane l = some k → 32 ≤ (h.lane k).queue.length → exec (.retract l) s = .next u.settled
          ∧ h.changesOnly u [.matching, .peers, .claims]
          ∧ u.claims = { s.claims with
              waiting := [[.placeOn k ack, .unlock [.matchUnit], .freeIngress l]], locks := [.matchUnit] })
        ∧ u.matching.store = s.matching.store.filter (·.id ≠ e.id) ∧ u.matching.free = s.matching.free + 1
        ∧ u.matching.unexpected = s.matching.unexpected - 1
        ∧ (∀ m, e.body = .ready m →
            u.peers = s.peers
              ∧ u.matching.uml = tabSet s.matching.uml e.domain ((tabGet s.matching.uml e.domain).filter (· ≠ e.id)))
        ∧ (∀ m, e.body = .held m →
            u.matching.uml = s.matching.uml
              ∧ u.peers = (s.setPeer m.source { s.peer m.source with
                  held := (s.peer m.source).held.filter (·.entry ≠ e.id) }).peers)

/-! ### Chapter 6: answers, supply and allocation -/

/-- R118, R119, R130: an entry that is resolved becomes FREE, or RETIRING while a read of it is outstanding; its timer and its
pending cancel are gone; its window position is given back, `send_base` moves to the nearest live sequence, and an allocation
claim is made for a FREE entry and for a changed `send_base`. R136: a peer restart completes the live entries toward the peer
PEER_RESTART in order of sequence, resolves them, empties the send window at `next_send_seq`, and makes an allocation claim. -/
def Obligations.EntriesResolve : Prop :=
  (∀ (s : State) (i : Fin 32),
    let e := s.sendEntry i
    let h := s.sendHalf e.dest
    let t := s.resolve i
    let busy := e.piece.outstanding
    let base := (t.sendHalf e.dest).sendBase
    s.changesOnly t [.sending, .claims]
      ∧ t.sendEntry i = { e with
          state := if busy then .retiring else .free, piece := if busy then e.piece else .noPiece
          timer := none, cancel := none }
      ∧ (∀ j, j ≠ i → t.sendEntry j = s.sendEntry j) ∧ t.sending.backlog = s.sending.backlog
      ∧ (∀ n, n ≠ e.dest → t.sendHalf n = s.sendHalf n)
      ∧ (t.sendHalf e.dest).nextSendSeq = h.nextSendSeq ∧ (t.sendHalf e.dest).inFlight = h.inFlight - 1
      ∧ t.claims = { s.claims with
          allocationClaims := s.claims.allocationClaims + (if busy then 0 else 1) + if base = h.sendBase then 0 else 1 }
      ∧ ((∀ j, j ≠ i → (s.sendEntry j).dest = e.dest → (s.sendEntry j).state.live = false) → base = h.nextSendSeq)
      ∧ ∀ j, j ≠ i → (s.sendEntry j).dest = e.dest → (s.sendEntry j).state.live = true →
          (base - h.sendBase).toNat ≤ ((s.sendEntry j).seq - h.sendBase).toNat
            ∧ ∃ k, k ≠ i ∧ (s.sendEntry k).dest = e.dest ∧ (s.sendEntry k).state.live = true
              ∧ base = (s.sendEntry k).seq)
  ∧ ∀ (s : State) (node : Node) (ended : List (Fin 32)),
    let h := s.sendHalf node
    (∀ i, i ∈ ended ↔ (s.sendEntry i).state.live = true ∧ (s.sendEntry i).dest = node) →
    ended.Pairwise (fun i j => ((s.sendEntry i).seq - h.sendBase).toNat < ((s.sendEntry j).seq - h.sendBase).toNat) →
    let t := s.restartSend node
    s.changesOnly t.1 [.sending, .claims]
      ∧ t.2 = ended.flatMap (fun i =>
          (s.sendEntry i).completion .peerRestart 0 0 false :: (s.sendEntry i).cancelCompletion .tooLate)
      ∧ (∀ i, t.1.sendEntry i =
          let e := s.sendEntry i
          let busy := e.piece.outstanding
          if i ∈ ended then
            { e with
              state := if busy then .retiring else .free, piece := if busy then e.piece else .noPiece
              timer := none, cancel := none }
          else e)
      ∧ t.1.sendHalf node = { h with sendBase := h.nextSendSeq, inFlight := 0 }
      ∧ (∀ n, n ≠ node → t.1.sendHalf n = s.sendHalf n) ∧ t.1.sending.backlog = s.sending.backlog
      ∧ s.claims.allocationClaims < t.1.claims.allocationClaims
      ∧ t.1.claims = { s.claims with allocationClaims := t.1.claims.allocationClaims }

/-- R126, R128, R129: an ACK, a REFUSE or an ABORT that names a live entry completes its SEND and then a pending cancel, and
resolves the entry; an answer that names none, or an ACK in a state that awaits none, is stale. -/
def Obligations.AnswersEndSends : Prop :=
  ∀ (s : State) (l : Lane) (f : Frame), s.carries l f →
    f.kind = .ack ∨ f.kind = .refuse ∨ (f.kind = .abort ∧ f.toReceiver = false) →
    let h := s.handling l
    (s.namedEntry f = none → exec (f.command l) s = .next (h.stale.handled l))
    ∧ ∀ i, s.namedEntry f = some i → s.roomFor 2 →
      let e := s.sendEntry i
      let sent := if e.mode = .eager then e.length else e.pullLength
      let ends (status : Status) (detail : BitVec 8) (delivered : Nat) (cancel : Status) : Prop :=
        ∃ u, exec (f.command l) s = .next (u.handled l) ∧ h.changesOnly u [.sending, .claims, .ring, .host, .outbox]
          ∧ u.sending = (h.resolve i).sending ∧ u.claims = (h.resolve i).claims
          ∧ h.posts u
            ({ kind := 5, status, detail, rendezvous := decide (e.mode = .rendezvous), domain := domainByte e.domain,
               peer := e.dest.setWidth 16, cookie := e.cookie, tag := e.tag, delivered, length := e.length,
               notify := e.notify }
              :: (e.cancel.toList.map fun x =>
                { kind := 6, status := cancel, domain := domainByte e.domain, peer := e.dest.setWidth 16,
                  cookie := x.cookie, tag := e.tag, notify := x.notify }))
      (f.kind = .refuse → ends .refused f.reason 0 .tooLate)
      ∧ (f.kind = .abort → ends .remoteAbort f.reason 0 .tooLate)
      ∧ (f.kind = .ack →
        (e.state = .waitAck → f.retracted = false → ends (if sent < e.length then .truncated else .ok) 0 sent .tooLate)
        ∧ (e.state = .waitPull ∨ e.state = .retracting → f.retracted = false →
            ends (if e.length = 0 then .ok else .truncated) 0 0 .tooLate)
        ∧ (e.state = .retracting → f.retracted = true → ends .cancelled 0 0 .ok)
        ∧ (e.state = .eagerSending ∨ e.state = .streaming ∨ (f.retracted = true ∧ e.state ≠ .retracting) →
            exec (.ack l) s = .next (h.stale.handled l)))

/-- R127: in ONLINE a PULL for a WAIT_PULL or RETRACTING entry makes it STREAMING, pinned to the PULL's lane, with the pull
length and context of the frame; it reads its first piece, and a pending cancel completes TOO_LATE. The numbers of the
reads are the model's (log entry 4), and so is their order (log entry 35). -/
def Obligations.PullStartsStream : Prop :=
  ∀ (s : State) (l : Lane) (f : Frame) (i : Fin 32), s.carries l f → f.kind = .pull →
    let h := s.handling l
    let e := s.sendEntry i
    s.namedEntry f = some i → f.total.toNat ≤ e.length → e.state = .waitPull ∨ e.state = .retracting →
    s.host.partState = .online → s.roomFor 1 →
    let streaming := { e with
      state := .streaming, pullLength := f.total.toNat, contextRef := f.contextRef, pinnedLane := l, nextOffset := 0
      piece := .noPiece, timer := some (s.host.tick + BitVec.ofNat 64 s.setup.responseLimit), cancel := none }
    let tag := s.claims.nextTag
    let reads := streaming.pieceReads f.total.toNat tag
    ∃ v u, exec (.pull l) s = .next (u.handled l)
      ∧ h.changesOnly v [.sending, .claims, .outbox] ∧ h.transfers v reads
      ∧ v.sending = (s.setSendEntry i (streaming.preparing f.total.toNat tag)).sending
      ∧ v.claims = { s.claims with nextTag := tag + reads.length }
      ∧ v.changesOnly u [.ring, .host, .outbox]
      ∧ v.posts u (e.cancel.toList.map fun x =>
          { kind := 6, status := .tooLate, domain := domainByte e.domain, peer := e.dest.setWidth 16,
            cookie := x.cookie, tag := e.tag, notify := x.notify })

/-- R126, R127: a PULL that names no entry, or one that is past pulling, is stale and answered ABORT(UNKNOWN_HANDLE); a pull length
above the message length is a protocol error; out of ONLINE the SEND completes ABORTED and ABORT(STOPPED) answers. -/
def Obligations.PullsAnsweredByAbort : Prop :=
  ∀ (s : State) (l : Lane) (f : Frame), s.carries l f → f.kind = .pull →
    let h := s.handling l
    let abort (reason : BitVec 8) : Frame :=
      { kind := .abort, flags := 2, dest := f.source, source := s.setup.nodeId, epoch := s.setup.epoch, reason,
        contextRef := f.contextRef }
    h.placeable l →
    (s.namedEntry f = none
        ∨ (∃ i, s.namedEntry f = some i ∧ f.total.toNat ≤ (s.sendEntry i).length
            ∧ (s.sendEntry i).state ≠ .waitPull ∧ (s.sendEntry i).state ≠ .retracting) →
      ∃ u, exec (.pull l) s = .next (u.handled l) ∧ h.changesOnly u [.laneA, .laneB, .counters]
        ∧ h.stale.places u l (abort 2))
    ∧ ∀ i, s.namedEntry f = some i →
      let e := s.sendEntry i
      (e.length < f.total.toNat →
        ∃ u, exec (.pull l) s = .next (u.handled l) ∧ h.changesOnly u [.counters, .ring, .host, .outbox]
          ∧ (h.count 4 1).reports u
            { kind := .protocolError, node := f.source.setWidth 16, seq := f.seq, paramA := 3, paramB := f.total })
      ∧ (f.total.toNat ≤ e.length → e.state = .waitPull ∨ e.state = .retracting → s.host.partState ≠ .online →
          s.roomFor 2 →
        ∃ u, exec (.pull l) s = .next (u.handled l)
          ∧ h.changesOnly u [.laneA, .laneB, .counters, .sending, .claims, .ring, .host, .outbox]
          ∧ u.sending = (h.resolve i).sending ∧ u.claims = (h.resolve i).claims ∧ h.places u l (abort 3)
          ∧ h.posts u
            (e.completion .aborted 3 0 false :: e.cancelCompletion .tooLate))

/-- R122, R125, R130: a read that returns fills its part of the piece, ready once all have; a RETIRING entry becomes FREE
when none is outstanding. A read answered with an error completes the SEND HOST_READ_ERROR and resolves its entry; a
STREAMING one also answers ABORT(HOST_READ_ERROR). -/
def Obligations.SendReadsReturn : Prop :=
  ∀ (s : State) (tag : Nat) (i : Fin 32) (offset : Nat) (parts : List ReadPart) (reply : Option Bytes) (c : Instr),
    let e := s.sendEntry i
    s.calm → s.active = true → s.readEntry tag = some i → e.piece = .reading offset parts →
    (∃ bytes, reply = some bytes ∧ s.awaitsSendRead tag bytes.length = true ∧ c = .sendReadReturn tag bytes)
      ∨ (reply = none ∧ c = .sendReadError tag) →
    let parts' := parts.map fun q => if q.tag = tag then { q with data := some (reply.getD []) } else q
    let back := ∀ q ∈ parts', q.data.isSome = true
    let piece' : Piece := if parts'.all (·.data.isSome) then .ready offset (parts'.flatMap fun q => q.data.getD [])
      else .reading offset parts'
    (e.state = .retiring → ∃ u, exec c s = .next u.settled ∧ s.changesOnly u [.sending, .claims]
      ∧ (¬ back → u.claims = s.claims ∧ u.sending = (s.setSendEntry i { e with piece := piece' }).sending)
      ∧ (back → u.claims = { s.claims with allocationClaims := s.claims.allocationClaims + 1 }
          ∧ u.sending = (s.setSendEntry i { e with piece := .noPiece, state := .free }).sending))
    ∧ (e.state ≠ .retiring → reply.isSome = true →
      ∃ u, exec c s = .next u.settled ∧ s.changesOnly u [.sending]
        ∧ u.sending = (s.setSendEntry i { e with piece := piece' }).sending)
    ∧ (e.state.live = true → reply = none → s.roomFor 2 → s.placeable e.pinnedLane →
      let ended := (s.setSendEntry i { e with piece := piece' }).resolve i
      ∃ u, exec c s = .next u.settled
        ∧ s.changesOnly u [.sending, .claims, .ring, .host, .outbox, .laneA, .laneB, .counters]
        ∧ u.sending = ended.sending ∧ u.claims = ended.claims
        ∧ s.posts u (e.completion .hostReadError 0 0 false :: e.cancelCompletion .tooLate)
        ∧ if e.state = .streaming then
            s.places u e.pinnedLane
              { kind := .abort, flags := 2, dest := e.dest, source := s.setup.nodeId, epoch := s.setup.epoch, reason := 4,
                contextRef := e.contextRef }
          else s.changesOnly u [.sending, .claims, .ring, .host, .outbox])

/-- R119 to R122: an allocation claim gives the oldest backlog entry whose destination has room the lowest-numbered FREE
entry and the next sequence number; an EAGER entry prepares its first piece, a RENDEZVOUS one places its ANNOUNCE on the
lane its sequence names; a further claim follows. With no such pair, or out of ONLINE, the claim ends. The numbers of the
reads are the model's (log entry 4), and so is their order (log entry 35). -/
def Obligations.AllocationsAllocate : Prop :=
  ∀ (s : State), s.calm → s.active = true → 0 < s.claims.allocationClaims →
    let n := s.claims.allocationClaims
    let room (b : Backlogged) : Prop :=
      ((s.sendHalf b.dest).nextSendSeq - (s.sendHalf b.dest).sendBase).toNat < 8
    (s.host.partState ≠ .online ∨ (∀ b ∈ s.sending.backlog, ¬ room b) ∨ (∀ i, (s.sendEntry i).state ≠ .free) →
      ∃ u, exec .allocationClaim s = .next u.settled ∧ s.changesOnly u [.claims]
        ∧ u.claims = { s.claims with allocationClaims := n - 1 })
    ∧ ∀ b before after i, s.host.partState = .online → s.sending.backlog = before ++ b :: after → room b →
      (∀ x ∈ before, ¬ room x) → (∀ x ∈ before ++ after, x.order ≠ b.order) → (s.sendEntry i).state = .free →
      (∀ j, j < i → (s.sendEntry j).state ≠ .free) →
      let half := s.sendHalf b.dest
      let seq := half.nextSendSeq
      let lane := if seq.getLsbD 0 then Lane.b else Lane.a
      let entry : SendEntry := { SendEntry.reset with
        generation := (s.sendEntry i).generation + 1, cookie := b.cookie, domain := b.domain, tag := b.tag
        notify := b.notify, dest := b.dest, seq, mode := b.mode, length := b.length, segments := b.segments
        order := b.order }
      let eager := { entry with
        state := .eagerSending, timer := some (s.host.tick + BitVec.ofNat 64 s.setup.responseLimit)
        piece := if b.length = 0 then .ready 0 [] else .noPiece }
      let base := (s.setSending { s.sending with backlog := before ++ after }).setSendHalf b.dest
        { half with nextSendSeq := seq + 1, inFlight := half.inFlight + 1 }
      (b.mode = .eager → b.length = 0 →
        ∃ u, exec .allocationClaim s = .next u.settled ∧ s.changesOnly u [.claims, .sending]
          ∧ u.claims = s.claims ∧ u.sending = (base.setSendEntry i eager).sending)
      ∧ (b.mode = .eager → 0 < b.length →
        let reads := eager.pieceReads b.length s.claims.nextTag
        ∃ u, exec .allocationClaim s = .next u.settled ∧ s.changesOnly u [.claims, .sending, .outbox]
          ∧ u.claims = { s.claims with nextTag := s.claims.nextTag + reads.length }
          ∧ u.sending = (base.setSendEntry i (eager.preparing b.length s.claims.nextTag)).sending
          ∧ s.transfers u reads)
      ∧ (b.mode = .rendezvous → s.placeable lane →
        ∃ u, exec .allocationClaim s = .next u.settled
          ∧ s.changesOnly u [.claims, .sending, .laneA, .laneB, .counters]
          ∧ u.claims = s.claims
          ∧ u.sending = (base.setSendEntry i { entry with
              state := .waitPull, announceLane := (s.chooseLane lane).getD lane }).sending
          ∧ s.places u lane
            { kind := .announce, dest := b.dest, source := s.setup.nodeId, epoch := s.setup.epoch, seq
              windowBase := half.sendBase, tag := b.tag, domain := domainByte b.domain
              total := BitVec.ofNat 32 b.length, handle := makeHandle i entry.generation })

/-! ### Chapters 4 and 5: pull service and drains -/

/-- R76, R77: a pull service claim in ONLINE gives the Pull Queue head the lowest FREE context, which is PULLING, places its
PULL, and makes a further claim; a head of pull length 0 ends OK with an ACK; else the claim ends. -/
def Obligations.PullServiceServes : Prop :=
  ∀ s : State, s.calm → s.active = true → 0 < s.claims.pullClaims →
    let n := s.claims.pullClaims
    (s.host.partState ≠ .online ∨ s.matching.pullQueue = [] →
      ∃ u, exec .pullService s = .next u.settled ∧ s.changesOnly u [.claims]
        ∧ u.claims = { s.claims with pullClaims := n - 1 })
    ∧ ∀ id rest d r m wait, s.host.partState = .online → s.matching.pullQueue = id :: rest →
      s.matching.find id = some { id, domain := d, body := .bound r m wait } →
      let P := min m.length r.total
      (P ≠ 0 → (∀ c, (s.context c).body ≠ .free) →
        ∃ u, exec .pullService s = .next u.settled ∧ s.changesOnly u [.claims]
          ∧ u.claims = { s.claims with pullClaims := n - 1 })
      ∧ (P = 0 → s.placeable m.lane → s.roomFor 2 →
        let ended := s.endBound id .ok 0
        ∃ u, exec .pullService s = .next u.settled
          ∧ s.changesOnly u [.matching, .ring, .host, .outbox, .laneA, .laneB, .counters]
          ∧ u.matching = ended.1.matching ∧ s.posts u ended.2
          ∧ s.places u m.lane
            { kind := .ack, dest := m.source, source := s.setup.nodeId, epoch := s.setup.epoch, seq := m.seq,
              handle := m.handle })
      ∧ ∀ c, P ≠ 0 → (s.context c).body = .free → (∀ k, k < c → (s.context k).body ≠ .free) → s.placeable m.lane →
        let g : Gather :=
          { source := m.source, epoch := m.epoch, seq := m.seq, handle := m.handle, length := m.length
            target := .segments r.segments, writeLimit := r.total, entry := id, truncated := false
            lastActivity := s.host.tick, answerLane := m.lane }
        ∃ u, exec .pullService s = .next u.settled
          ∧ s.changesOnly u [.matching, .contexts, .laneA, .laneB, .counters]
          ∧ u.contexts =
            { table := tabSet s.contexts.table c
                { generation := (s.context c).generation + 1, body := .pulling g P 0 }
              age := s.contexts.age ++ [c] }
          ∧ u.matching = { s.matching with
              store := s.matching.store.map fun e =>
                if e.id = id then { e with body := .bound r { m with context := some c } .pulling } else e
              pullQueue := s.matching.pullQueue.filter (· ≠ id)
              contextLatch := false }
          ∧ s.places u m.lane
            { kind := .pull, dest := m.source, source := s.setup.nodeId, epoch := s.setup.epoch, seq := m.seq
              total := BitVec.ofNat 32 P, handle := m.handle
              contextRef := makeRef c ((s.context c).generation + 1) }

/-- R108 to R111: a drain start moves the Drain Queue head into the lowest FREE slot and reads chunks in ascending order, as
many as asked and one at least (log entry 8), numbered as the model numbers reads (log entry 4); a drain of no bytes ends at
once. -/
def Obligations.DrainsStart : Prop :=
  ∀ (s : State) (reads id : Nat) (rest : List Nat) (k : Fin 4) (d : Fin 64) (r : Receive) (m : Message) (p : StoredSpill)
    (wait : WaitState),
    s.calm → s.host.partState = .online → s.mover.queue = id :: rest → s.slot k = none →
    (∀ j, j < k → s.slot j ≠ none) → s.matching.find id = some { id, domain := d, body := .bound r m wait } →
    m.spill = some p →
    let drain : Drain :=
      { entry := id, address := p.address, segments := r.segments, length := min m.length r.total, nextChunk := 0
        outstanding := [], failed := false }
    let n := min drain.chunks (max 1 reads)
    (0 < drain.length →
      ∃ u, exec (.drainStart reads) s = .next u.settled ∧ s.changesOnly u [.matching, .mover, .claims, .outbox]
        ∧ u.matching = { s.matching with store := s.matching.store.map fun e =>
            if e.id = id then { e with body := .bound r m .draining } else e }
        ∧ u.mover = { queue := rest, slots := tabSet s.mover.slots k (some (drain.issuing s.claims.nextTag n)) }
        ∧ u.claims = { s.claims with nextTag := s.claims.nextTag + n }
        ∧ s.transfers u (drain.chunkReads s.claims.nextTag n))
    ∧ (drain.length = 0 → s.roomFor 2 →
      let ended := s.endBound id (deliveredStatus r m) 0
      ∃ u, exec (.drainStart reads) s = .next u.settled
        ∧ s.changesOnly u [.matching, .mover, .ring, .host, .outbox, .counters]
        ∧ u.matching = ended.1.matching ∧ u.mover = { s.mover with queue := rest }
        ∧ s.posts u ended.2 ∧ u.counters = (s.count 15 1).counters)

/-- R110 to R112: a chunk that returns is written into the segments unless the drain has failed, and further chunks are
read (log entry 8; their numbers: log entry 4). That the writes leave before the further reads of the same step is the
model's choice (log entry 40). When all are done the receive ends OK or TRUNCATED and counter 15 rises, or
HOST_READ_ERROR once a read was answered with an error; the slot becomes FREE. -/
def Obligations.DrainsAdvance : Prop :=
  ∀ (s : State) (tag reads j : Nat) (k : Fin 4) (d : Drain) (reply : Option Bytes) (c : Instr),
    s.calm → s.active = true → s.chunkSlot tag = some k → s.slot k = some d → d.chunkOf tag = some j →
    (∃ bytes, reply = some bytes ∧ bytes.length = d.chunkLength j ∧ c = .drainChunkReadReturn tag bytes reads)
      ∨ (reply = none ∧ reads = 0 ∧ c = .drainReadError tag) →
    let back : Drain := { d with
      outstanding := d.outstanding.filter (·.tag ≠ tag), failed := d.failed || decide (reply = none) }
    let left := if back.failed then 0 else back.chunks - back.nextChunk
    let n := min left (if back.outstanding = [] then max 1 reads else reads)
    let writes := if back.failed then [] else
      (scatter d.segments (256 * j) (reply.getD [])).map fun w => Output.write w.1 w.2
    (back.outstanding ≠ [] ∨ left ≠ 0 →
      ∃ u, exec c s = .next u.settled ∧ s.changesOnly u [.mover, .claims, .outbox]
        ∧ u.mover = { s.mover with slots := tabSet s.mover.slots k (some (back.issuing s.claims.nextTag n)) }
        ∧ u.claims = { s.claims with nextTag := s.claims.nextTag + n }
        ∧ s.transfers u (writes ++ back.chunkReads s.claims.nextTag n))
    ∧ (back.outstanding = [] → left = 0 → s.roomFor 2 →
      let ended := if back.failed then s.endBound d.entry .hostReadError 0 else s.deliver d.entry
      ∃ v u, exec c s = .next u.settled ∧ s.changesOnly v [.outbox] ∧ s.transfers v writes
        ∧ v.changesOnly u [.mover, .matching, .ring, .host, .outbox, .counters]
        ∧ u.mover = { s.mover with slots := tabSet s.mover.slots k none }
        ∧ u.matching = ended.1.matching ∧ v.posts u ended.2
        ∧ u.counters = if back.failed then s.counters else (s.count 15 1).counters)

/-! ### Timers -/

/-- R17, R131: a deadline that is reached ends its POSTED receive TIMEOUT; a response timer that is reached completes its
SEND TIMEOUT and counts it, or, RETRACTING, CANCELLED with UNCONFIRMED and its cancel OK, and resolves the entry. -/
def Obligations.DeadlinesEndRequests : Prop :=
  (∀ (s : State) (id : Nat) (d : Fin 64) (r : Receive) (t : Tick), s.calm → s.active = true → s.roomFor 1 →
    s.matching.find id = some { id, domain := d, body := .posted r (some t) } → t ≤ s.host.tick →
    ∃ u, exec (.receiveDeadlineExpiry id) s = .next u.settled ∧ s.changesOnly u [.matching, .ring, .host, .outbox]
      ∧ u.matching = { s.matching with
          store := s.matching.store.filter (·.id ≠ id), free := s.matching.free + 1
          prl := tabSet s.matching.prl d ((tabGet s.matching.prl d).filter (· ≠ id)) }
      ∧ s.posts u
        [{ kind := 2, status := .timeout, domain := domainByte d, peer := r.selector, cookie := r.cookie, tag := r.tag,
           notify := r.notify }])
  ∧ ∀ (s : State) (i : Fin 32) (t : Tick),
    let e := s.sendEntry i
    s.calm → s.active = true → s.roomFor 2 → e.state.live = true → e.timer = some t → t ≤ s.host.tick →
    ∃ u, exec (.responseTimerExpiry i) s = .next u.settled
      ∧ s.changesOnly u [.sending, .claims, .ring, .host, .outbox, .counters]
      ∧ u.sending = (s.resolve i).sending ∧ u.claims = (s.resolve i).claims
      ∧ if e.state = .retracting then
          u.counters = s.counters ∧ s.posts u (e.completion .cancelled 0 0 true :: e.cancelCompletion .ok)
        else
          u.counters = (s.count 12 1).counters
            ∧ s.posts u (e.completion .timeout 0 0 false :: e.cancelCompletion .tooLate)

/-- R70, R66: a gap timer that is reached skips the current position, counts and reports it, releases the opened positions
that follow, and is re-armed while later positions are open. R23, R78: a released HELD entry gives its message, with its
spill buffer and context, to the first POSTED receive that matches and returns to the pool, or becomes READY at the tail of
UML. R89 to R92: a context that reaches its age limit is counted, answered REFUSE(INCOMPLETE) or ABORT(EXPIRED),
loses its data and becomes FREE. -/
def Obligations.TimersSkipAndExpire : Prop :=
  (∀ (s : State) (node : Node) (t : Tick),
    let p := s.peer node
    s.calm → s.active = true → p.gapTimer = some t → t ≤ s.host.tick → ∀ j, p.opensRun 1 j →
    ∃ u, exec (.gapTimerExpiry node) s = .next u.settled
      ∧ s.changesOnly u [.peers, .matching, .contexts, .mover, .claims, .counters, .ring, .host, .outbox]
      ∧ s.moves u node (1 + j)
      ∧ (s.count 11 1).reports u
        { kind := .sequenceGap, node := node.setWidth 16, seq := p.nextSeq, paramA := 1, paramB := 2 })
  ∧ (∀ (s : State) (id : Nat) (d : Fin 64) (m : Message), s.matching.find id = some { id, domain := d, body := .held m } →
    let u := s.release id
    let become (i : Nat) (b : EntryBody) (es : List Entry) : List Entry :=
      es.map fun e => if e.id = i then { e with body := b } else e
    (s.matching.searchPrl d m = none →
      s.changesOnly u [.matching] ∧ u.matching = { s.matching with
        store := become id (.ready m) s.matching.store
        uml := tabSet s.matching.uml d (tabGet s.matching.uml d ++ [id]) })
    ∧ ∀ k r, s.matching.searchPrl d m = some (k, r) →
      let wait : WaitState :=
        if m.mode = .rendezvous then .awaitContext
        else if m.spill = none then .awaitData
        else if m.spill.map (·.fill) = some .complete then .awaitDrain
        else .awaitFill
      let pulls := wait = .awaitContext ∧ s.matching.pullQueue = []
      s.changesOnly u [.matching, .contexts, .mover, .claims]
        ∧ u.matching = { s.matching with
            store := become k (.bound r m wait) (s.matching.store.filter (·.id ≠ id))
            free := s.matching.free + 1
            unexpected := s.matching.unexpected - 1
            prl := tabSet s.matching.prl d ((tabGet s.matching.prl d).filter (· ≠ k))
            pullQueue := s.matching.pullQueue ++ if wait = .awaitContext then [k] else [] }
        ∧ u.contexts.age = s.contexts.age
        ∧ (∀ c, u.context c = if m.context = some c then
            { s.context c with body := match (s.context c).body with
                | .filling g tag dom bits => .filling { g with entry := k } tag dom bits
                | .pulling g n next => .pulling { g with entry := k } n next
                | .free => .free }
            else s.context c)
        ∧ u.mover = { s.mover with queue := s.mover.queue ++ if wait = .awaitDrain then [k] else [] }
        ∧ u.claims = { s.claims with pullClaims := s.claims.pullClaims + if pulls then 1 else 0 })
  ∧ ∀ (s : State) (c : Fin 64) (g : Gather), s.calm → s.active = true → s.roomFor 2 → s.placeable g.answerLane →
    (s.context c).body.gather = some g → g.lastActivity + BitVec.ofNat 64 s.setup.ageLimit ≤ s.host.tick →
    let filling := ∃ tag d bitmap, (s.context c).body = .filling g tag d bitmap
    let lost := s.dataLost g.entry
    let answer (kind : FrameKind) (reason : BitVec 8) : Frame :=
      { kind, dest := g.source, source := s.setup.nodeId, epoch := s.setup.epoch, seq := g.seq, handle := g.handle
        reason }
    ∃ u, exec (.contextExpiry c) s = .next u.settled
      ∧ s.changesOnly u [.contexts, .counters, .matching, .peers, .ring, .host, .outbox, .laneA, .laneB, .claims]
      ∧ u.contexts =
        { table := tabSet s.contexts.table c { s.context c with body := .free }, age := s.contexts.age.filter (· ≠ c) }
      ∧ u.claims = { s.claims with pullClaims := s.claims.pullClaims + 1 }
      ∧ u.matching = lost.1.matching ∧ u.peers = lost.1.peers ∧ s.posts u lost.2
      ∧ (filling → (s.count 10 1).places u g.answerLane (answer .refuse 6))
      ∧ (¬ filling → (s.count 10 1).places u g.answerLane (answer .abort 5))

/-! ### What follows a command, and the invariants -/

/-- R149, R150, R186, R187, R193: what settling a command may change when no claim waits: the lanes send, the Send Table
supplies, and a part in STOPPING that meets the stopping condition enters STOPPED, with a PART_STATE event, and raises
STATE (R187, R193). R141, R147 to R149: an idle transmitter takes, in TRAINING, the TRAIN once every buffer is FREE, and in
UP a CREDIT for what is owed, else, with a credit, the head of the Control Frame Queue, else a data frame. R122 to R124,
R150: that is the ready piece of the first entry from the round-robin position that has one, as DATA or, on its pinned
lane, as PDATA; its timer is re-armed and its next piece prepared, or it enters WAIT_ACK. The order in which both lanes ask
is left free (log entry 9): where the other asks too, each sends a piece of an entry of its own, and one of them the piece
of an entry both come to first. (The numbers and the order of the reads are the model's, log entries 4 and 35.) R151, R172:
a producer that waits for a full queue, and a giver that waits for a full Completion Holding Queue, go on when a place
becomes free (kept as lists of acts: log entries 5 and 6). -/
def Obligations.SettlingKeepsTheRest : Prop :=
  (∀ u : State, u.claims.waiting = [] →
      let t := u.settled
      u.changesOnly t [.host, .ring, .counters, .sending, .laneA, .laneB, .claims, .outbox]
        ∧ t.sending.backlog = u.sending.backlog ∧ t.sending.halves = u.sending.halves
        ∧ (∀ i, (u.sendEntry i).state ≠ .eagerSending → (u.sendEntry i).state ≠ .streaming → t.sendEntry i = u.sendEntry i)
        ∧ (∀ l, (t.lane l).state = (u.lane l).state ∧ (t.lane l).ingress = (u.lane l).ingress
            ∧ (t.lane l).busy = (u.lane l).busy ∧ (t.lane l).creditLimit = (u.lane l).creditLimit)
        ∧ t.claims.waiting = [] ∧ t.claims.locks = u.claims.locks ∧ t.claims.pullClaims = u.claims.pullClaims
        ∧ t.claims.allocationClaims = u.claims.allocationClaims
        ∧ (u.host.partState ≠ .stopping → t.host = u.host ∧ t.ring = u.ring ∧ t.counters = u.counters)
        ∧ (u.host.partState = .stopping →
            if (∀ c, (t.context c).body = .free) ∧ (∀ k, t.slot k = none)
                ∧ (∀ i, (t.sendEntry i).state ≠ .eagerSending ∧ (t.sendEntry i).state ≠ .streaming)
                ∧ t.ring.chq = [] ∧ t.ring.take = .noTake ∧ t.spill.fetch = .noFetch then
              ∃ v, (u.setHost { u.host with partState := .stopped }).reports v
                  { kind := .partState, paramA := 4, paramB := 3 }
                ∧ t.host = { v.host with intCause := v.host.intCause ||| causeState } ∧ v.interrupts t
                ∧ t.ring = v.ring ∧ t.counters = v.counters
            else t.host = u.host ∧ t.ring = u.ring ∧ t.counters = u.counters))
  ∧ (∀ (u : State) (l : Lane), u.claims.waiting = [] →
    let t := u.settled
    let r := u.lane l
    let supplies (m : Lane) (i : Fin 32) : Prop :=
      ((u.sendEntry i).state = .eagerSending ∨ ((u.sendEntry i).state = .streaming ∧ (u.sendEntry i).pinnedLane = m))
        ∧ ∃ offset bytes, (u.sendEntry i).piece = .ready offset bytes
    let first (m : Lane) (i : Fin 32) : Prop :=
      supplies m i ∧ ∀ k, k < i - (u.lane m).roundRobin → ¬ supplies m ((u.lane m).roundRobin + k)
    let asks (m : Lane) : Prop :=
      (u.lane m).transmitter = none ∧ (u.lane m).state = .up ∧ (u.lane m).owed = 0 ∧ 0 < (u.lane m).credits
        ∧ (u.lane m).queue = []
    let sends (x : LaneRecord) (source : TxSource) (frame : Frame) : Prop :=
      t.lane l = { x with transmitter := some { source, frame } }
    let gives (m : Lane) (i : Fin 32) : Prop :=
      let e := u.sendEntry i
      ∀ offset bytes, e.piece = .ready offset bytes →
        t.lane m = { u.lane m with
          credits := (u.lane m).credits - 1, roundRobin := i + 1
          transmitter := some
            { source := .data
              frame := if e.state = .streaming then
                  { kind := .pdata, dest := e.dest, source := u.setup.nodeId, epoch := u.setup.epoch
                    payloadLength := BitVec.ofNat 16 bytes.length, total := BitVec.ofNat 32 e.pullLength
                    offset := BitVec.ofNat 32 offset, contextRef := e.contextRef, payload := bytes }
                else
                  { kind := .data, dest := e.dest, source := u.setup.nodeId, epoch := u.setup.epoch, seq := e.seq
                    windowBase := (u.sendHalf e.dest).sendBase, tag := e.tag, domain := domainByte e.domain
                    payloadLength := BitVec.ofNat 16 bytes.length, total := BitVec.ofNat 32 e.length
                    offset := BitVec.ofNat 32 offset, handle := makeHandle i e.generation, payload := bytes } } }
    (r.transmitter ≠ none → t.lane l = r)
    ∧ (r.transmitter = none →
      (r.state = .training → r.trainSent = false → r.ingress = [] →
        sends r .train { kind := .train, dest := u.setup.nodeId, total := 16 })
      ∧ (r.state = .up → 0 < r.owed →
        sends { r with owed := 0 } .credit
          { kind := .credit, dest := u.setup.nodeId, total := BitVec.ofNat 32 r.owed })
      ∧ (∀ f rest, r.state = .up → r.owed = 0 → 0 < r.credits → r.queue = f :: rest →
        sends { r with queue := rest, credits := r.credits - 1 } .control f)
      ∧ ((r.state ≠ .training ∧ r.state ≠ .up) ∨ (r.state = .training ∧ (r.trainSent = true ∨ r.ingress ≠ []))
          ∨ (r.state = .up ∧ r.owed = 0 ∧ (r.credits = 0 ∨ (r.queue = [] ∧ ∀ i, ¬ supplies l i))) → t.lane l = r))
    ∧ ∀ i, asks l → u.unheld .sendUnit = true → first l i →
      let alone := ¬ asks l.other ∨ ∀ k, ¬ supplies l.other k
      (alone ∨ (∃ k, k ≠ i ∧ first l.other k) → gives l i)
      ∧ (asks l.other → first l.other i → gives l i ∨ gives l.other i)
      ∧ (alone →
        let e := u.sendEntry i
        let total := if e.state = .streaming then e.pullLength else e.length
        let left := { e with
          piece := .noPiece, timer := some (u.host.tick + BitVec.ofNat 64 u.setup.responseLimit) }
        t.sendEntry i =
            (if e.nextOffset < total then left.preparing total u.claims.nextTag else { left with state := .waitAck })
          ∧ (∀ j, j ≠ i → t.sendEntry j = u.sendEntry j)
          ∧ (u.host.partState ≠ .stopping → u.transfers t
              (if e.nextOffset < total then left.pieceReads total u.claims.nextTag else []))))
  ∧ (∀ (u : State) (l : Lane) (f g : Frame) (rest : List Frame),
    let r := u.lane l
    u.claims.waiting = [[.placeOn l f]] → r.queue = g :: rest → r.queue.length = 32 → r.transmitter = none →
    r.state = .up → r.owed = 0 → 0 < r.credits →
    u.settled.lane l = { r with
        queue := rest ++ [f], credits := r.credits - 1, transmitter := some { source := .control, frame := g } }
      ∧ u.settled.claims.waiting = [])
  ∧ ∀ (u : State) (c : Completion), u.claims.waiting = [[.give c, .endTake]] → u.ring.chq ≠ [] → u.ring.chq.length < 16 →
    u.settled.ring = { u.ring with chq := u.ring.chq ++ [c], take := .noTake } ∧ u.settled.claims.waiting = []

/-- A part whose Host Port, lanes and queues are sound stays so at every command (R144, R148, R151, R169, R115, R97, R177,
R178, R180 to R183, R188, R192, R198). -/
def Obligations.PartStaysSound : Prop :=
  ∀ s t : State, s.sound → step s = .next t → t.sound

/-- A Match Store whose counts, lists, held references, domains and context ages are sound, with sound send windows, stays so
at every command (R1 to R4, R9, R10, R20, R21, R25, R68, R89, R117, R118). -/
def Obligations.StoreStaysSound : Prop :=
  ∀ s t : State, s.storeSound → step s = .next t → t.storeSound

/-- The state after power-on is sound in both ways. -/
def Obligations.ResetIsSound : Prop := State.reset.sound ∧ State.reset.storeSound
end

