-- ==== Sys2Proof/Laws/State.lean ====
section
/-! SUPPORT. One lemma for each part of State under each setter, all true by rfl, so that no proof unfolds a
record update. -/

namespace Sys2Proof.Machine

variable (s : State)

@[simp] theorem setHost_host (x : HostPort) : (s.setHost x).host = x := rfl
@[simp] theorem setHost_ring (x : HostPort) : (s.setHost x).ring = s.ring := rfl
@[simp] theorem setHost_spill (x : HostPort) : (s.setHost x).spill = s.spill := rfl
@[simp] theorem setHost_matching (x : HostPort) : (s.setHost x).matching = s.matching := rfl
@[simp] theorem setHost_peers (x : HostPort) : (s.setHost x).peers = s.peers := rfl
@[simp] theorem setHost_contexts (x : HostPort) : (s.setHost x).contexts = s.contexts := rfl
@[simp] theorem setHost_mover (x : HostPort) : (s.setHost x).mover = s.mover := rfl
@[simp] theorem setHost_sending (x : HostPort) : (s.setHost x).sending = s.sending := rfl
@[simp] theorem setHost_laneA (x : HostPort) : (s.setHost x).laneA = s.laneA := rfl
@[simp] theorem setHost_laneB (x : HostPort) : (s.setHost x).laneB = s.laneB := rfl
@[simp] theorem setHost_counters (x : HostPort) : (s.setHost x).counters = s.counters := rfl
@[simp] theorem setHost_claims (x : HostPort) : (s.setHost x).claims = s.claims := rfl
@[simp] theorem setHost_outbox (x : HostPort) : (s.setHost x).outbox = s.outbox := rfl
@[simp] theorem setHost_pending (x : HostPort) : (s.setHost x).pending = s.pending := rfl

@[simp] theorem setRing_host (x : RingUnit) : (s.setRing x).host = s.host := rfl
@[simp] theorem setRing_ring (x : RingUnit) : (s.setRing x).ring = x := rfl
@[simp] theorem setRing_spill (x : RingUnit) : (s.setRing x).spill = s.spill := rfl
@[simp] theorem setRing_matching (x : RingUnit) : (s.setRing x).matching = s.matching := rfl
@[simp] theorem setRing_peers (x : RingUnit) : (s.setRing x).peers = s.peers := rfl
@[simp] theorem setRing_contexts (x : RingUnit) : (s.setRing x).contexts = s.contexts := rfl
@[simp] theorem setRing_mover (x : RingUnit) : (s.setRing x).mover = s.mover := rfl
@[simp] theorem setRing_sending (x : RingUnit) : (s.setRing x).sending = s.sending := rfl
@[simp] theorem setRing_laneA (x : RingUnit) : (s.setRing x).laneA = s.laneA := rfl
@[simp] theorem setRing_laneB (x : RingUnit) : (s.setRing x).laneB = s.laneB := rfl
@[simp] theorem setRing_counters (x : RingUnit) : (s.setRing x).counters = s.counters := rfl
@[simp] theorem setRing_claims (x : RingUnit) : (s.setRing x).claims = s.claims := rfl
@[simp] theorem setRing_outbox (x : RingUnit) : (s.setRing x).outbox = s.outbox := rfl
@[simp] theorem setRing_pending (x : RingUnit) : (s.setRing x).pending = s.pending := rfl

@[simp] theorem setSpill_host (x : SpillCache) : (s.setSpill x).host = s.host := rfl
@[simp] theorem setSpill_ring (x : SpillCache) : (s.setSpill x).ring = s.ring := rfl
@[simp] theorem setSpill_spill (x : SpillCache) : (s.setSpill x).spill = x := rfl
@[simp] theorem setSpill_matching (x : SpillCache) : (s.setSpill x).matching = s.matching := rfl
@[simp] theorem setSpill_peers (x : SpillCache) : (s.setSpill x).peers = s.peers := rfl
@[simp] theorem setSpill_contexts (x : SpillCache) : (s.setSpill x).contexts = s.contexts := rfl
@[simp] theorem setSpill_mover (x : SpillCache) : (s.setSpill x).mover = s.mover := rfl
@[simp] theorem setSpill_sending (x : SpillCache) : (s.setSpill x).sending = s.sending := rfl
@[simp] theorem setSpill_laneA (x : SpillCache) : (s.setSpill x).laneA = s.laneA := rfl
@[simp] theorem setSpill_laneB (x : SpillCache) : (s.setSpill x).laneB = s.laneB := rfl
@[simp] theorem setSpill_counters (x : SpillCache) : (s.setSpill x).counters = s.counters := rfl
@[simp] theorem setSpill_claims (x : SpillCache) : (s.setSpill x).claims = s.claims := rfl
@[simp] theorem setSpill_outbox (x : SpillCache) : (s.setSpill x).outbox = s.outbox := rfl
@[simp] theorem setSpill_pending (x : SpillCache) : (s.setSpill x).pending = s.pending := rfl

@[simp] theorem setMatching_host (x : MatchUnit) : (s.setMatching x).host = s.host := rfl
@[simp] theorem setMatching_ring (x : MatchUnit) : (s.setMatching x).ring = s.ring := rfl
@[simp] theorem setMatching_spill (x : MatchUnit) : (s.setMatching x).spill = s.spill := rfl
@[simp] theorem setMatching_matching (x : MatchUnit) : (s.setMatching x).matching = x := rfl
@[simp] theorem setMatching_peers (x : MatchUnit) : (s.setMatching x).peers = s.peers := rfl
@[simp] theorem setMatching_contexts (x : MatchUnit) : (s.setMatching x).contexts = s.contexts := rfl
@[simp] theorem setMatching_mover (x : MatchUnit) : (s.setMatching x).mover = s.mover := rfl
@[simp] theorem setMatching_sending (x : MatchUnit) : (s.setMatching x).sending = s.sending := rfl
@[simp] theorem setMatching_laneA (x : MatchUnit) : (s.setMatching x).laneA = s.laneA := rfl
@[simp] theorem setMatching_laneB (x : MatchUnit) : (s.setMatching x).laneB = s.laneB := rfl
@[simp] theorem setMatching_counters (x : MatchUnit) : (s.setMatching x).counters = s.counters := rfl
@[simp] theorem setMatching_claims (x : MatchUnit) : (s.setMatching x).claims = s.claims := rfl
@[simp] theorem setMatching_outbox (x : MatchUnit) : (s.setMatching x).outbox = s.outbox := rfl
@[simp] theorem setMatching_pending (x : MatchUnit) : (s.setMatching x).pending = s.pending := rfl

@[simp] theorem setPeers_host (x : Vector PeerRecord 256) : (s.setPeers x).host = s.host := rfl
@[simp] theorem setPeers_ring (x : Vector PeerRecord 256) : (s.setPeers x).ring = s.ring := rfl
@[simp] theorem setPeers_spill (x : Vector PeerRecord 256) : (s.setPeers x).spill = s.spill := rfl
@[simp] theorem setPeers_matching (x : Vector PeerRecord 256) : (s.setPeers x).matching = s.matching := rfl
@[simp] theorem setPeers_peers (x : Vector PeerRecord 256) : (s.setPeers x).peers = x := rfl
@[simp] theorem setPeers_contexts (x : Vector PeerRecord 256) : (s.setPeers x).contexts = s.contexts := rfl
@[simp] theorem setPeers_mover (x : Vector PeerRecord 256) : (s.setPeers x).mover = s.mover := rfl
@[simp] theorem setPeers_sending (x : Vector PeerRecord 256) : (s.setPeers x).sending = s.sending := rfl
@[simp] theorem setPeers_laneA (x : Vector PeerRecord 256) : (s.setPeers x).laneA = s.laneA := rfl
@[simp] theorem setPeers_laneB (x : Vector PeerRecord 256) : (s.setPeers x).laneB = s.laneB := rfl
@[simp] theorem setPeers_counters (x : Vector PeerRecord 256) : (s.setPeers x).counters = s.counters := rfl
@[simp] theorem setPeers_claims (x : Vector PeerRecord 256) : (s.setPeers x).claims = s.claims := rfl
@[simp] theorem setPeers_outbox (x : Vector PeerRecord 256) : (s.setPeers x).outbox = s.outbox := rfl
@[simp] theorem setPeers_pending (x : Vector PeerRecord 256) : (s.setPeers x).pending = s.pending := rfl

@[simp] theorem setContexts_host (x : ReassemblyUnit) : (s.setContexts x).host = s.host := rfl
@[simp] theorem setContexts_ring (x : ReassemblyUnit) : (s.setContexts x).ring = s.ring := rfl
@[simp] theorem setContexts_spill (x : ReassemblyUnit) : (s.setContexts x).spill = s.spill := rfl
@[simp] theorem setContexts_matching (x : ReassemblyUnit) : (s.setContexts x).matching = s.matching := rfl
@[simp] theorem setContexts_peers (x : ReassemblyUnit) : (s.setContexts x).peers = s.peers := rfl
@[simp] theorem setContexts_contexts (x : ReassemblyUnit) : (s.setContexts x).contexts = x := rfl
@[simp] theorem setContexts_mover (x : ReassemblyUnit) : (s.setContexts x).mover = s.mover := rfl
@[simp] theorem setContexts_sending (x : ReassemblyUnit) : (s.setContexts x).sending = s.sending := rfl
@[simp] theorem setContexts_laneA (x : ReassemblyUnit) : (s.setContexts x).laneA = s.laneA := rfl
@[simp] theorem setContexts_laneB (x : ReassemblyUnit) : (s.setContexts x).laneB = s.laneB := rfl
@[simp] theorem setContexts_counters (x : ReassemblyUnit) : (s.setContexts x).counters = s.counters := rfl
@[simp] theorem setContexts_claims (x : ReassemblyUnit) : (s.setContexts x).claims = s.claims := rfl
@[simp] theorem setContexts_outbox (x : ReassemblyUnit) : (s.setContexts x).outbox = s.outbox := rfl
@[simp] theorem setContexts_pending (x : ReassemblyUnit) : (s.setContexts x).pending = s.pending := rfl

@[simp] theorem setMover_host (x : DataMover) : (s.setMover x).host = s.host := rfl
@[simp] theorem setMover_ring (x : DataMover) : (s.setMover x).ring = s.ring := rfl
@[simp] theorem setMover_spill (x : DataMover) : (s.setMover x).spill = s.spill := rfl
@[simp] theorem setMover_matching (x : DataMover) : (s.setMover x).matching = s.matching := rfl
@[simp] theorem setMover_peers (x : DataMover) : (s.setMover x).peers = s.peers := rfl
@[simp] theorem setMover_contexts (x : DataMover) : (s.setMover x).contexts = s.contexts := rfl
@[simp] theorem setMover_mover (x : DataMover) : (s.setMover x).mover = x := rfl
@[simp] theorem setMover_sending (x : DataMover) : (s.setMover x).sending = s.sending := rfl
@[simp] theorem setMover_laneA (x : DataMover) : (s.setMover x).laneA = s.laneA := rfl
@[simp] theorem setMover_laneB (x : DataMover) : (s.setMover x).laneB = s.laneB := rfl
@[simp] theorem setMover_counters (x : DataMover) : (s.setMover x).counters = s.counters := rfl
@[simp] theorem setMover_claims (x : DataMover) : (s.setMover x).claims = s.claims := rfl
@[simp] theorem setMover_outbox (x : DataMover) : (s.setMover x).outbox = s.outbox := rfl
@[simp] theorem setMover_pending (x : DataMover) : (s.setMover x).pending = s.pending := rfl

@[simp] theorem setSending_host (x : SendUnit) : (s.setSending x).host = s.host := rfl
@[simp] theorem setSending_ring (x : SendUnit) : (s.setSending x).ring = s.ring := rfl
@[simp] theorem setSending_spill (x : SendUnit) : (s.setSending x).spill = s.spill := rfl
@[simp] theorem setSending_matching (x : SendUnit) : (s.setSending x).matching = s.matching := rfl
@[simp] theorem setSending_peers (x : SendUnit) : (s.setSending x).peers = s.peers := rfl
@[simp] theorem setSending_contexts (x : SendUnit) : (s.setSending x).contexts = s.contexts := rfl
@[simp] theorem setSending_mover (x : SendUnit) : (s.setSending x).mover = s.mover := rfl
@[simp] theorem setSending_sending (x : SendUnit) : (s.setSending x).sending = x := rfl
@[simp] theorem setSending_laneA (x : SendUnit) : (s.setSending x).laneA = s.laneA := rfl
@[simp] theorem setSending_laneB (x : SendUnit) : (s.setSending x).laneB = s.laneB := rfl
@[simp] theorem setSending_counters (x : SendUnit) : (s.setSending x).counters = s.counters := rfl
@[simp] theorem setSending_claims (x : SendUnit) : (s.setSending x).claims = s.claims := rfl
@[simp] theorem setSending_outbox (x : SendUnit) : (s.setSending x).outbox = s.outbox := rfl
@[simp] theorem setSending_pending (x : SendUnit) : (s.setSending x).pending = s.pending := rfl

@[simp] theorem setLaneA_host (x : LaneRecord) : (s.setLaneA x).host = s.host := rfl
@[simp] theorem setLaneA_ring (x : LaneRecord) : (s.setLaneA x).ring = s.ring := rfl
@[simp] theorem setLaneA_spill (x : LaneRecord) : (s.setLaneA x).spill = s.spill := rfl
@[simp] theorem setLaneA_matching (x : LaneRecord) : (s.setLaneA x).matching = s.matching := rfl
@[simp] theorem setLaneA_peers (x : LaneRecord) : (s.setLaneA x).peers = s.peers := rfl
@[simp] theorem setLaneA_contexts (x : LaneRecord) : (s.setLaneA x).contexts = s.contexts := rfl
@[simp] theorem setLaneA_mover (x : LaneRecord) : (s.setLaneA x).mover = s.mover := rfl
@[simp] theorem setLaneA_sending (x : LaneRecord) : (s.setLaneA x).sending = s.sending := rfl
@[simp] theorem setLaneA_laneA (x : LaneRecord) : (s.setLaneA x).laneA = x := rfl
@[simp] theorem setLaneA_laneB (x : LaneRecord) : (s.setLaneA x).laneB = s.laneB := rfl
@[simp] theorem setLaneA_counters (x : LaneRecord) : (s.setLaneA x).counters = s.counters := rfl
@[simp] theorem setLaneA_claims (x : LaneRecord) : (s.setLaneA x).claims = s.claims := rfl
@[simp] theorem setLaneA_outbox (x : LaneRecord) : (s.setLaneA x).outbox = s.outbox := rfl
@[simp] theorem setLaneA_pending (x : LaneRecord) : (s.setLaneA x).pending = s.pending := rfl

@[simp] theorem setLaneB_host (x : LaneRecord) : (s.setLaneB x).host = s.host := rfl
@[simp] theorem setLaneB_ring (x : LaneRecord) : (s.setLaneB x).ring = s.ring := rfl
@[simp] theorem setLaneB_spill (x : LaneRecord) : (s.setLaneB x).spill = s.spill := rfl
@[simp] theorem setLaneB_matching (x : LaneRecord) : (s.setLaneB x).matching = s.matching := rfl
@[simp] theorem setLaneB_peers (x : LaneRecord) : (s.setLaneB x).peers = s.peers := rfl
@[simp] theorem setLaneB_contexts (x : LaneRecord) : (s.setLaneB x).contexts = s.contexts := rfl
@[simp] theorem setLaneB_mover (x : LaneRecord) : (s.setLaneB x).mover = s.mover := rfl
@[simp] theorem setLaneB_sending (x : LaneRecord) : (s.setLaneB x).sending = s.sending := rfl
@[simp] theorem setLaneB_laneA (x : LaneRecord) : (s.setLaneB x).laneA = s.laneA := rfl
@[simp] theorem setLaneB_laneB (x : LaneRecord) : (s.setLaneB x).laneB = x := rfl
@[simp] theorem setLaneB_counters (x : LaneRecord) : (s.setLaneB x).counters = s.counters := rfl
@[simp] theorem setLaneB_claims (x : LaneRecord) : (s.setLaneB x).claims = s.claims := rfl
@[simp] theorem setLaneB_outbox (x : LaneRecord) : (s.setLaneB x).outbox = s.outbox := rfl
@[simp] theorem setLaneB_pending (x : LaneRecord) : (s.setLaneB x).pending = s.pending := rfl

@[simp] theorem setCounters_host (x : CounterBank) : (s.setCounters x).host = s.host := rfl
@[simp] theorem setCounters_ring (x : CounterBank) : (s.setCounters x).ring = s.ring := rfl
@[simp] theorem setCounters_spill (x : CounterBank) : (s.setCounters x).spill = s.spill := rfl
@[simp] theorem setCounters_matching (x : CounterBank) : (s.setCounters x).matching = s.matching := rfl
@[simp] theorem setCounters_peers (x : CounterBank) : (s.setCounters x).peers = s.peers := rfl
@[simp] theorem setCounters_contexts (x : CounterBank) : (s.setCounters x).contexts = s.contexts := rfl
@[simp] theorem setCounters_mover (x : CounterBank) : (s.setCounters x).mover = s.mover := rfl
@[simp] theorem setCounters_sending (x : CounterBank) : (s.setCounters x).sending = s.sending := rfl
@[simp] theorem setCounters_laneA (x : CounterBank) : (s.setCounters x).laneA = s.laneA := rfl
@[simp] theorem setCounters_laneB (x : CounterBank) : (s.setCounters x).laneB = s.laneB := rfl
@[simp] theorem setCounters_counters (x : CounterBank) : (s.setCounters x).counters = x := rfl
@[simp] theorem setCounters_claims (x : CounterBank) : (s.setCounters x).claims = s.claims := rfl
@[simp] theorem setCounters_outbox (x : CounterBank) : (s.setCounters x).outbox = s.outbox := rfl
@[simp] theorem setCounters_pending (x : CounterBank) : (s.setCounters x).pending = s.pending := rfl

@[simp] theorem setClaims_host (x : Claims) : (s.setClaims x).host = s.host := rfl
@[simp] theorem setClaims_ring (x : Claims) : (s.setClaims x).ring = s.ring := rfl
@[simp] theorem setClaims_spill (x : Claims) : (s.setClaims x).spill = s.spill := rfl
@[simp] theorem setClaims_matching (x : Claims) : (s.setClaims x).matching = s.matching := rfl
@[simp] theorem setClaims_peers (x : Claims) : (s.setClaims x).peers = s.peers := rfl
@[simp] theorem setClaims_contexts (x : Claims) : (s.setClaims x).contexts = s.contexts := rfl
@[simp] theorem setClaims_mover (x : Claims) : (s.setClaims x).mover = s.mover := rfl
@[simp] theorem setClaims_sending (x : Claims) : (s.setClaims x).sending = s.sending := rfl
@[simp] theorem setClaims_laneA (x : Claims) : (s.setClaims x).laneA = s.laneA := rfl
@[simp] theorem setClaims_laneB (x : Claims) : (s.setClaims x).laneB = s.laneB := rfl
@[simp] theorem setClaims_counters (x : Claims) : (s.setClaims x).counters = s.counters := rfl
@[simp] theorem setClaims_claims (x : Claims) : (s.setClaims x).claims = x := rfl
@[simp] theorem setClaims_outbox (x : Claims) : (s.setClaims x).outbox = s.outbox := rfl
@[simp] theorem setClaims_pending (x : Claims) : (s.setClaims x).pending = s.pending := rfl

@[simp] theorem setOutbox_host (x : List Output) : (s.setOutbox x).host = s.host := rfl
@[simp] theorem setOutbox_ring (x : List Output) : (s.setOutbox x).ring = s.ring := rfl
@[simp] theorem setOutbox_spill (x : List Output) : (s.setOutbox x).spill = s.spill := rfl
@[simp] theorem setOutbox_matching (x : List Output) : (s.setOutbox x).matching = s.matching := rfl
@[simp] theorem setOutbox_peers (x : List Output) : (s.setOutbox x).peers = s.peers := rfl
@[simp] theorem setOutbox_contexts (x : List Output) : (s.setOutbox x).contexts = s.contexts := rfl
@[simp] theorem setOutbox_mover (x : List Output) : (s.setOutbox x).mover = s.mover := rfl
@[simp] theorem setOutbox_sending (x : List Output) : (s.setOutbox x).sending = s.sending := rfl
@[simp] theorem setOutbox_laneA (x : List Output) : (s.setOutbox x).laneA = s.laneA := rfl
@[simp] theorem setOutbox_laneB (x : List Output) : (s.setOutbox x).laneB = s.laneB := rfl
@[simp] theorem setOutbox_counters (x : List Output) : (s.setOutbox x).counters = s.counters := rfl
@[simp] theorem setOutbox_claims (x : List Output) : (s.setOutbox x).claims = s.claims := rfl
@[simp] theorem setOutbox_outbox (x : List Output) : (s.setOutbox x).outbox = x := rfl
@[simp] theorem setOutbox_pending (x : List Output) : (s.setOutbox x).pending = s.pending := rfl

@[simp] theorem setPending_host (x : List Instr) : (s.setPending x).host = s.host := rfl
@[simp] theorem setPending_ring (x : List Instr) : (s.setPending x).ring = s.ring := rfl
@[simp] theorem setPending_spill (x : List Instr) : (s.setPending x).spill = s.spill := rfl
@[simp] theorem setPending_matching (x : List Instr) : (s.setPending x).matching = s.matching := rfl
@[simp] theorem setPending_peers (x : List Instr) : (s.setPending x).peers = s.peers := rfl
@[simp] theorem setPending_contexts (x : List Instr) : (s.setPending x).contexts = s.contexts := rfl
@[simp] theorem setPending_mover (x : List Instr) : (s.setPending x).mover = s.mover := rfl
@[simp] theorem setPending_sending (x : List Instr) : (s.setPending x).sending = s.sending := rfl
@[simp] theorem setPending_laneA (x : List Instr) : (s.setPending x).laneA = s.laneA := rfl
@[simp] theorem setPending_laneB (x : List Instr) : (s.setPending x).laneB = s.laneB := rfl
@[simp] theorem setPending_counters (x : List Instr) : (s.setPending x).counters = s.counters := rfl
@[simp] theorem setPending_claims (x : List Instr) : (s.setPending x).claims = s.claims := rfl
@[simp] theorem setPending_outbox (x : List Instr) : (s.setPending x).outbox = s.outbox := rfl
@[simp] theorem setPending_pending (x : List Instr) : (s.setPending x).pending = x := rfl

end Sys2Proof.Machine
end

