-- ==== Sys2Proof/Laws/Frames.lean ====
section
/-! SUPPORT. What each operation leaves alone: one lemma per operation names the blocks of State that are the same
after it. -/

namespace Sys2Proof.Machine

variable (s : State)

/-- What every step of a collection leaves alone, the collection leaves alone. -/
theorem collect_keeps {α β : Type} (π : State → β) (xs : List α) (f : α → State → State × List Completion)
    (h : ∀ x s, π (f x s).1 = π s) : ∀ s : State, π (s.collect xs f).1 = π s := by
  induction xs with
  | nil => intro s; rfl
  | cons x xs ih => intro s; simp [State.collect, ih, h]

/-- What every step of a fold leaves alone, the fold leaves alone. -/
theorem foldl_keeps {α β : Type} (π : State → β) (xs : List α) (f : State → α → State)
    (h : ∀ s x, π (f s x) = π s) : ∀ s : State, π (xs.foldl f s) = π s := by
  induction xs with
  | nil => intro s; rfl
  | cons x xs ih => intro s; simp [ih, h]

@[simp] theorem emit_frame (o : Output) :
    (s.emit o).host = s.host ∧ (s.emit o).ring = s.ring ∧ (s.emit o).spill = s.spill ∧
    (s.emit o).matching = s.matching ∧ (s.emit o).peers = s.peers ∧ (s.emit o).contexts = s.contexts ∧
    (s.emit o).mover = s.mover ∧ (s.emit o).sending = s.sending ∧ (s.emit o).laneA = s.laneA ∧
    (s.emit o).laneB = s.laneB ∧ (s.emit o).counters = s.counters ∧ (s.emit o).claims = s.claims ∧
    (s.emit o).pending = s.pending := by
  simp [State.emit]

@[simp] theorem hostWrite_frame (a : BitVec 64) (b : Bytes) :
    (s.hostWrite a b).host = s.host ∧ (s.hostWrite a b).ring = s.ring ∧ (s.hostWrite a b).spill = s.spill ∧
    (s.hostWrite a b).matching = s.matching ∧ (s.hostWrite a b).peers = s.peers ∧
    (s.hostWrite a b).contexts = s.contexts ∧ (s.hostWrite a b).mover = s.mover ∧
    (s.hostWrite a b).sending = s.sending ∧ (s.hostWrite a b).laneA = s.laneA ∧
    (s.hostWrite a b).laneB = s.laneB ∧ (s.hostWrite a b).counters = s.counters ∧
    (s.hostWrite a b).claims = s.claims ∧ (s.hostWrite a b).pending = s.pending := by
  simp [State.hostWrite]

@[simp] theorem hostRead_frame (a : BitVec 64) (n : Nat) :
    (s.hostRead a n).host = s.host ∧ (s.hostRead a n).ring = s.ring ∧ (s.hostRead a n).spill = s.spill ∧
    (s.hostRead a n).matching = s.matching ∧ (s.hostRead a n).peers = s.peers ∧
    (s.hostRead a n).contexts = s.contexts ∧ (s.hostRead a n).mover = s.mover ∧
    (s.hostRead a n).sending = s.sending ∧ (s.hostRead a n).laneA = s.laneA ∧
    (s.hostRead a n).laneB = s.laneB ∧ (s.hostRead a n).counters = s.counters ∧
    (s.hostRead a n).pending = s.pending := by
  simp [State.hostRead]

@[simp] theorem hostWrites_frame (ws : List (BitVec 64 × Bytes)) :
    (s.hostWrites ws).host = s.host ∧ (s.hostWrites ws).ring = s.ring ∧ (s.hostWrites ws).spill = s.spill ∧
    (s.hostWrites ws).matching = s.matching ∧ (s.hostWrites ws).peers = s.peers ∧
    (s.hostWrites ws).contexts = s.contexts ∧ (s.hostWrites ws).mover = s.mover ∧
    (s.hostWrites ws).sending = s.sending ∧ (s.hostWrites ws).laneA = s.laneA ∧
    (s.hostWrites ws).laneB = s.laneB ∧ (s.hostWrites ws).counters = s.counters ∧
    (s.hostWrites ws).claims = s.claims ∧ (s.hostWrites ws).pending = s.pending := by
  induction ws generalizing s with
  | nil => simp [State.hostWrites]
  | cons w ws ih => simp [State.hostWrites, ih]

@[simp] theorem shadowWrite_frame :
    (s.shadowWrite).host = s.host ∧ (s.shadowWrite).ring = s.ring ∧ (s.shadowWrite).spill = s.spill ∧
    (s.shadowWrite).matching = s.matching ∧ (s.shadowWrite).peers = s.peers ∧
    (s.shadowWrite).contexts = s.contexts ∧ (s.shadowWrite).mover = s.mover ∧
    (s.shadowWrite).sending = s.sending ∧ (s.shadowWrite).laneA = s.laneA ∧ (s.shadowWrite).laneB = s.laneB ∧
    (s.shadowWrite).counters = s.counters ∧ (s.shadowWrite).claims = s.claims ∧
    (s.shadowWrite).pending = s.pending := by
  simp [State.shadowWrite]

@[simp] theorem count_frame (k : Fin 16) (n : Nat) :
    (s.count k n).host = s.host ∧ (s.count k n).ring = s.ring ∧ (s.count k n).spill = s.spill ∧
    (s.count k n).matching = s.matching ∧ (s.count k n).peers = s.peers ∧ (s.count k n).contexts = s.contexts ∧
    (s.count k n).mover = s.mover ∧ (s.count k n).sending = s.sending ∧ (s.count k n).laneA = s.laneA ∧
    (s.count k n).laneB = s.laneB ∧ (s.count k n).claims = s.claims ∧ (s.count k n).outbox = s.outbox ∧
    (s.count k n).pending = s.pending := by
  simp [State.count]

@[simp] theorem setInterrupts_frame (c m : BitVec 4) (e : Bool) :
    (s.setInterrupts c m e).ring = s.ring ∧ (s.setInterrupts c m e).spill = s.spill ∧
    (s.setInterrupts c m e).matching = s.matching ∧ (s.setInterrupts c m e).peers = s.peers ∧
    (s.setInterrupts c m e).contexts = s.contexts ∧ (s.setInterrupts c m e).mover = s.mover ∧
    (s.setInterrupts c m e).sending = s.sending ∧ (s.setInterrupts c m e).laneA = s.laneA ∧
    (s.setInterrupts c m e).laneB = s.laneB ∧ (s.setInterrupts c m e).counters = s.counters ∧
    (s.setInterrupts c m e).claims = s.claims ∧ (s.setInterrupts c m e).pending = s.pending := by
  unfold State.setInterrupts; dsimp only [thenGives]; (repeat' split) <;> simp_all

@[simp] theorem raise_frame (c : BitVec 4) :
    (s.raise c).ring = s.ring ∧ (s.raise c).spill = s.spill ∧ (s.raise c).matching = s.matching ∧
    (s.raise c).peers = s.peers ∧ (s.raise c).contexts = s.contexts ∧ (s.raise c).mover = s.mover ∧
    (s.raise c).sending = s.sending ∧ (s.raise c).laneA = s.laneA ∧ (s.raise c).laneB = s.laneB ∧
    (s.raise c).counters = s.counters ∧ (s.raise c).claims = s.claims ∧ (s.raise c).pending = s.pending := by
  unfold State.raise; (repeat' split) <;> simp_all

@[simp] theorem writeEvent_frame (e : Event) :
    (s.writeEvent e).spill = s.spill ∧ (s.writeEvent e).matching = s.matching ∧
    (s.writeEvent e).peers = s.peers ∧ (s.writeEvent e).contexts = s.contexts ∧
    (s.writeEvent e).mover = s.mover ∧ (s.writeEvent e).sending = s.sending ∧
    (s.writeEvent e).laneA = s.laneA ∧ (s.writeEvent e).laneB = s.laneB ∧
    (s.writeEvent e).counters = s.counters ∧ (s.writeEvent e).claims = s.claims ∧
    (s.writeEvent e).pending = s.pending := by
  unfold State.writeEvent; dsimp only [thenGives]; (repeat' split) <;> simp_all

@[simp] theorem loseEvent_frame :
    (s.loseEvent).host = s.host ∧ (s.loseEvent).spill = s.spill ∧ (s.loseEvent).matching = s.matching ∧
    (s.loseEvent).peers = s.peers ∧ (s.loseEvent).contexts = s.contexts ∧ (s.loseEvent).mover = s.mover ∧
    (s.loseEvent).sending = s.sending ∧ (s.loseEvent).laneA = s.laneA ∧ (s.loseEvent).laneB = s.laneB ∧
    (s.loseEvent).claims = s.claims ∧ (s.loseEvent).outbox = s.outbox ∧
    (s.loseEvent).pending = s.pending := by
  simp [State.loseEvent]

@[simp] theorem giveEvent_frame (e : Event) :
    (s.giveEvent e).spill = s.spill ∧ (s.giveEvent e).matching = s.matching ∧ (s.giveEvent e).peers = s.peers ∧
    (s.giveEvent e).contexts = s.contexts ∧ (s.giveEvent e).mover = s.mover ∧
    (s.giveEvent e).sending = s.sending ∧ (s.giveEvent e).laneA = s.laneA ∧ (s.giveEvent e).laneB = s.laneB ∧
    (s.giveEvent e).claims = s.claims ∧ (s.giveEvent e).pending = s.pending := by
  unfold State.giveEvent; (repeat' split) <;> simp_all

@[simp] theorem writeCompletion_frame (c : Completion) :
    (s.writeCompletion c).spill = s.spill ∧ (s.writeCompletion c).matching = s.matching ∧
    (s.writeCompletion c).peers = s.peers ∧ (s.writeCompletion c).contexts = s.contexts ∧
    (s.writeCompletion c).mover = s.mover ∧ (s.writeCompletion c).sending = s.sending ∧
    (s.writeCompletion c).laneA = s.laneA ∧ (s.writeCompletion c).laneB = s.laneB ∧
    (s.writeCompletion c).counters = s.counters ∧ (s.writeCompletion c).claims = s.claims ∧
    (s.writeCompletion c).pending = s.pending := by
  unfold State.writeCompletion; dsimp only [thenGives]; (repeat' split) <;> simp_all

@[simp] theorem takeCompletion_frame (c : Completion) :
    (s.takeCompletion c).spill = s.spill ∧ (s.takeCompletion c).matching = s.matching ∧
    (s.takeCompletion c).peers = s.peers ∧ (s.takeCompletion c).contexts = s.contexts ∧
    (s.takeCompletion c).mover = s.mover ∧ (s.takeCompletion c).sending = s.sending ∧
    (s.takeCompletion c).laneA = s.laneA ∧ (s.takeCompletion c).laneB = s.laneB ∧
    (s.takeCompletion c).counters = s.counters ∧ (s.takeCompletion c).claims = s.claims ∧
    (s.takeCompletion c).pending = s.pending := by
  unfold State.takeCompletion; dsimp only [thenGives]; (repeat' split) <;> simp_all

@[simp] theorem drainHeld_frame (cs : List Completion) :
    (s.drainHeld cs).spill = s.spill ∧ (s.drainHeld cs).matching = s.matching ∧
    (s.drainHeld cs).peers = s.peers ∧ (s.drainHeld cs).contexts = s.contexts ∧
    (s.drainHeld cs).mover = s.mover ∧ (s.drainHeld cs).sending = s.sending ∧
    (s.drainHeld cs).laneA = s.laneA ∧ (s.drainHeld cs).laneB = s.laneB ∧
    (s.drainHeld cs).counters = s.counters ∧ (s.drainHeld cs).claims = s.claims ∧
    (s.drainHeld cs).pending = s.pending := by
  induction cs generalizing s with
  | nil => simp [State.drainHeld]
  | cons c cs ih => unfold State.drainHeld; split <;> simp [ih]

@[simp] theorem drainChq_frame :
    (s.drainChq).spill = s.spill ∧ (s.drainChq).matching = s.matching ∧ (s.drainChq).peers = s.peers ∧
    (s.drainChq).contexts = s.contexts ∧ (s.drainChq).mover = s.mover ∧ (s.drainChq).sending = s.sending ∧
    (s.drainChq).laneA = s.laneA ∧ (s.drainChq).laneB = s.laneB ∧ (s.drainChq).counters = s.counters ∧
    (s.drainChq).claims = s.claims ∧ (s.drainChq).pending = s.pending := by
  unfold State.drainChq; (repeat' split) <;> simp_all

@[simp] theorem resourceTaken_frame (r : Resource) :
    (s.resourceTaken r).host = s.host ∧ (s.resourceTaken r).ring = s.ring ∧
    (s.resourceTaken r).spill = s.spill ∧ (s.resourceTaken r).peers = s.peers ∧
    (s.resourceTaken r).contexts = s.contexts ∧ (s.resourceTaken r).mover = s.mover ∧
    (s.resourceTaken r).sending = s.sending ∧ (s.resourceTaken r).laneA = s.laneA ∧
    (s.resourceTaken r).laneB = s.laneB ∧ (s.resourceTaken r).counters = s.counters ∧
    (s.resourceTaken r).claims = s.claims ∧ (s.resourceTaken r).outbox = s.outbox ∧
    (s.resourceTaken r).pending = s.pending := by
  simp [State.resourceTaken]

@[simp] theorem resourceRefused_frame (r : Resource) (n : BitVec 16) (q : Seq) (d : Fin 64) :
    (s.resourceRefused r n q d).spill = s.spill ∧ (s.resourceRefused r n q d).peers = s.peers ∧
    (s.resourceRefused r n q d).contexts = s.contexts ∧ (s.resourceRefused r n q d).mover = s.mover ∧
    (s.resourceRefused r n q d).sending = s.sending ∧ (s.resourceRefused r n q d).laneA = s.laneA ∧
    (s.resourceRefused r n q d).laneB = s.laneB ∧ (s.resourceRefused r n q d).claims = s.claims ∧
    (s.resourceRefused r n q d).pending = s.pending := by
  unfold State.resourceRefused; dsimp only [thenGives]; (repeat' split) <;> simp_all

@[simp] theorem hold_frame (l : Lock) :
    (s.hold l).host = s.host ∧ (s.hold l).ring = s.ring ∧ (s.hold l).spill = s.spill ∧
    (s.hold l).matching = s.matching ∧ (s.hold l).peers = s.peers ∧ (s.hold l).contexts = s.contexts ∧
    (s.hold l).mover = s.mover ∧ (s.hold l).sending = s.sending ∧ (s.hold l).laneA = s.laneA ∧
    (s.hold l).laneB = s.laneB ∧ (s.hold l).counters = s.counters ∧ (s.hold l).outbox = s.outbox ∧
    (s.hold l).pending = s.pending := by
  simp [State.hold]

@[simp] theorem unhold_frame (l : Lock) :
    (s.unhold l).host = s.host ∧ (s.unhold l).ring = s.ring ∧ (s.unhold l).spill = s.spill ∧
    (s.unhold l).matching = s.matching ∧ (s.unhold l).peers = s.peers ∧ (s.unhold l).contexts = s.contexts ∧
    (s.unhold l).mover = s.mover ∧ (s.unhold l).sending = s.sending ∧ (s.unhold l).laneA = s.laneA ∧
    (s.unhold l).laneB = s.laneB ∧ (s.unhold l).counters = s.counters ∧ (s.unhold l).outbox = s.outbox ∧
    (s.unhold l).pending = s.pending := by
  simp [State.unhold]

@[simp] theorem claimPullService_frame :
    (s.claimPullService).host = s.host ∧ (s.claimPullService).ring = s.ring ∧
    (s.claimPullService).spill = s.spill ∧ (s.claimPullService).matching = s.matching ∧
    (s.claimPullService).peers = s.peers ∧ (s.claimPullService).contexts = s.contexts ∧
    (s.claimPullService).mover = s.mover ∧ (s.claimPullService).sending = s.sending ∧
    (s.claimPullService).laneA = s.laneA ∧ (s.claimPullService).laneB = s.laneB ∧
    (s.claimPullService).counters = s.counters ∧ (s.claimPullService).outbox = s.outbox ∧
    (s.claimPullService).pending = s.pending := by
  simp [State.claimPullService]

@[simp] theorem claimAllocation_frame :
    (s.claimAllocation).host = s.host ∧ (s.claimAllocation).ring = s.ring ∧
    (s.claimAllocation).spill = s.spill ∧ (s.claimAllocation).matching = s.matching ∧
    (s.claimAllocation).peers = s.peers ∧ (s.claimAllocation).contexts = s.contexts ∧
    (s.claimAllocation).mover = s.mover ∧ (s.claimAllocation).sending = s.sending ∧
    (s.claimAllocation).laneA = s.laneA ∧ (s.claimAllocation).laneB = s.laneB ∧
    (s.claimAllocation).counters = s.counters ∧ (s.claimAllocation).outbox = s.outbox ∧
    (s.claimAllocation).pending = s.pending := by
  simp [State.claimAllocation]

@[simp] theorem setLane_frame (l : Lane) (r : LaneRecord) :
    (s.setLane l r).host = s.host ∧ (s.setLane l r).ring = s.ring ∧ (s.setLane l r).spill = s.spill ∧
    (s.setLane l r).matching = s.matching ∧ (s.setLane l r).peers = s.peers ∧
    (s.setLane l r).contexts = s.contexts ∧ (s.setLane l r).mover = s.mover ∧
    (s.setLane l r).sending = s.sending ∧ (s.setLane l r).counters = s.counters ∧
    (s.setLane l r).claims = s.claims ∧ (s.setLane l r).outbox = s.outbox ∧
    (s.setLane l r).pending = s.pending := by
  cases l <;> simp [State.setLane]

@[simp] theorem setPeer_frame (n : Node) (p : PeerRecord) :
    (s.setPeer n p).host = s.host ∧ (s.setPeer n p).ring = s.ring ∧ (s.setPeer n p).spill = s.spill ∧
    (s.setPeer n p).matching = s.matching ∧ (s.setPeer n p).contexts = s.contexts ∧
    (s.setPeer n p).mover = s.mover ∧ (s.setPeer n p).sending = s.sending ∧ (s.setPeer n p).laneA = s.laneA ∧
    (s.setPeer n p).laneB = s.laneB ∧ (s.setPeer n p).counters = s.counters ∧
    (s.setPeer n p).claims = s.claims ∧ (s.setPeer n p).outbox = s.outbox ∧
    (s.setPeer n p).pending = s.pending := by
  simp [State.setPeer]

@[simp] theorem setContextBody_frame (c : Fin 64) (b : ContextBody) :
    (s.setContextBody c b).host = s.host ∧ (s.setContextBody c b).ring = s.ring ∧
    (s.setContextBody c b).spill = s.spill ∧ (s.setContextBody c b).matching = s.matching ∧
    (s.setContextBody c b).peers = s.peers ∧ (s.setContextBody c b).mover = s.mover ∧
    (s.setContextBody c b).sending = s.sending ∧ (s.setContextBody c b).laneA = s.laneA ∧
    (s.setContextBody c b).laneB = s.laneB ∧ (s.setContextBody c b).counters = s.counters ∧
    (s.setContextBody c b).claims = s.claims ∧ (s.setContextBody c b).outbox = s.outbox ∧
    (s.setContextBody c b).pending = s.pending := by
  simp [State.setContextBody]

@[simp] theorem setSendEntry_frame (i : Fin 32) (e : SendEntry) :
    (s.setSendEntry i e).host = s.host ∧ (s.setSendEntry i e).ring = s.ring ∧
    (s.setSendEntry i e).spill = s.spill ∧ (s.setSendEntry i e).matching = s.matching ∧
    (s.setSendEntry i e).peers = s.peers ∧ (s.setSendEntry i e).contexts = s.contexts ∧
    (s.setSendEntry i e).mover = s.mover ∧ (s.setSendEntry i e).laneA = s.laneA ∧
    (s.setSendEntry i e).laneB = s.laneB ∧ (s.setSendEntry i e).counters = s.counters ∧
    (s.setSendEntry i e).claims = s.claims ∧ (s.setSendEntry i e).outbox = s.outbox ∧
    (s.setSendEntry i e).pending = s.pending := by
  simp [State.setSendEntry]

@[simp] theorem setSendHalf_frame (n : Node) (h : SendHalf) :
    (s.setSendHalf n h).host = s.host ∧ (s.setSendHalf n h).ring = s.ring ∧
    (s.setSendHalf n h).spill = s.spill ∧ (s.setSendHalf n h).matching = s.matching ∧
    (s.setSendHalf n h).peers = s.peers ∧ (s.setSendHalf n h).contexts = s.contexts ∧
    (s.setSendHalf n h).mover = s.mover ∧ (s.setSendHalf n h).laneA = s.laneA ∧
    (s.setSendHalf n h).laneB = s.laneB ∧ (s.setSendHalf n h).counters = s.counters ∧
    (s.setSendHalf n h).claims = s.claims ∧ (s.setSendHalf n h).outbox = s.outbox ∧
    (s.setSendHalf n h).pending = s.pending := by
  simp [State.setSendHalf]

@[simp] theorem setDomain_frame (d : Fin 64) (x : DomainRecord) :
    (s.setDomain d x).host = s.host ∧ (s.setDomain d x).ring = s.ring ∧ (s.setDomain d x).spill = s.spill ∧
    (s.setDomain d x).peers = s.peers ∧ (s.setDomain d x).contexts = s.contexts ∧
    (s.setDomain d x).mover = s.mover ∧ (s.setDomain d x).sending = s.sending ∧
    (s.setDomain d x).laneA = s.laneA ∧ (s.setDomain d x).laneB = s.laneB ∧
    (s.setDomain d x).counters = s.counters ∧ (s.setDomain d x).claims = s.claims ∧
    (s.setDomain d x).outbox = s.outbox ∧ (s.setDomain d x).pending = s.pending := by
  simp [State.setDomain]

@[simp] theorem setSlot_frame (k : Fin 4) (x : Option Drain) :
    (s.setSlot k x).host = s.host ∧ (s.setSlot k x).ring = s.ring ∧ (s.setSlot k x).spill = s.spill ∧
    (s.setSlot k x).matching = s.matching ∧ (s.setSlot k x).peers = s.peers ∧
    (s.setSlot k x).contexts = s.contexts ∧ (s.setSlot k x).sending = s.sending ∧
    (s.setSlot k x).laneA = s.laneA ∧ (s.setSlot k x).laneB = s.laneB ∧ (s.setSlot k x).counters = s.counters ∧
    (s.setSlot k x).claims = s.claims ∧ (s.setSlot k x).outbox = s.outbox ∧
    (s.setSlot k x).pending = s.pending := by
  simp [State.setSlot]

@[simp] theorem enterTraining_frame (l : Lane) (c : BitVec 32) :
    (s.enterTraining l c).spill = s.spill ∧ (s.enterTraining l c).matching = s.matching ∧
    (s.enterTraining l c).peers = s.peers ∧ (s.enterTraining l c).contexts = s.contexts ∧
    (s.enterTraining l c).mover = s.mover ∧ (s.enterTraining l c).sending = s.sending ∧
    (s.enterTraining l c).claims = s.claims ∧ (s.enterTraining l c).pending = s.pending := by
  unfold State.enterTraining; dsimp only [thenGives]; (repeat' split) <;> simp_all

@[simp] theorem cutFrame_frame (l : Lane) :
    (s.cutFrame l).host = s.host ∧ (s.cutFrame l).ring = s.ring ∧ (s.cutFrame l).spill = s.spill ∧
    (s.cutFrame l).matching = s.matching ∧ (s.cutFrame l).peers = s.peers ∧
    (s.cutFrame l).contexts = s.contexts ∧ (s.cutFrame l).mover = s.mover ∧
    (s.cutFrame l).sending = s.sending ∧ (s.cutFrame l).laneA = s.laneA ∧ (s.cutFrame l).laneB = s.laneB ∧
    (s.cutFrame l).counters = s.counters ∧ (s.cutFrame l).claims = s.claims ∧
    (s.cutFrame l).pending = s.pending := by
  unfold State.cutFrame; (repeat' split) <;> simp_all

@[simp] theorem dropProducers_frame (l : Lane) :
    (s.dropProducers l).host = s.host ∧ (s.dropProducers l).ring = s.ring ∧
    (s.dropProducers l).spill = s.spill ∧ (s.dropProducers l).matching = s.matching ∧
    (s.dropProducers l).peers = s.peers ∧ (s.dropProducers l).contexts = s.contexts ∧
    (s.dropProducers l).mover = s.mover ∧ (s.dropProducers l).sending = s.sending ∧
    (s.dropProducers l).laneA = s.laneA ∧ (s.dropProducers l).laneB = s.laneB ∧
    (s.dropProducers l).counters = s.counters ∧ (s.dropProducers l).outbox = s.outbox ∧
    (s.dropProducers l).pending = s.pending := by
  simp [State.dropProducers]

@[simp] theorem enterFault_frame (l : Lane) (c : BitVec 32) :
    (s.enterFault l c).spill = s.spill ∧ (s.enterFault l c).matching = s.matching ∧
    (s.enterFault l c).peers = s.peers ∧ (s.enterFault l c).contexts = s.contexts ∧
    (s.enterFault l c).mover = s.mover ∧ (s.enterFault l c).sending = s.sending ∧
    (s.enterFault l c).pending = s.pending := by
  unfold State.enterFault; dsimp only [thenGives]; (repeat' split) <;> simp_all

@[simp] theorem enterDown_frame (l : Lane) :
    (s.enterDown l).host = s.host ∧ (s.enterDown l).ring = s.ring ∧ (s.enterDown l).spill = s.spill ∧
    (s.enterDown l).matching = s.matching ∧ (s.enterDown l).peers = s.peers ∧
    (s.enterDown l).contexts = s.contexts ∧ (s.enterDown l).mover = s.mover ∧
    (s.enterDown l).sending = s.sending ∧ (s.enterDown l).counters = s.counters ∧
    (s.enterDown l).pending = s.pending := by
  unfold State.enterDown; dsimp only [thenGives]; (repeat' split) <;> simp_all

@[simp] theorem decideOwn_frame (l : Lane) :
    (s.decideOwn l).host = s.host ∧ (s.decideOwn l).ring = s.ring ∧ (s.decideOwn l).spill = s.spill ∧
    (s.decideOwn l).matching = s.matching ∧ (s.decideOwn l).peers = s.peers ∧
    (s.decideOwn l).contexts = s.contexts ∧ (s.decideOwn l).mover = s.mover ∧
    (s.decideOwn l).sending = s.sending ∧ (s.decideOwn l).counters = s.counters ∧
    (s.decideOwn l).claims = s.claims ∧ (s.decideOwn l).outbox = s.outbox ∧
    (s.decideOwn l).pending = s.pending := by
  unfold State.decideOwn; dsimp only [thenGives]; (repeat' split) <;> simp_all

@[simp] theorem chosen_frame :
    (s.chosen).host = s.host ∧ (s.chosen).ring = s.ring ∧ (s.chosen).spill = s.spill ∧
    (s.chosen).matching = s.matching ∧ (s.chosen).peers = s.peers ∧ (s.chosen).contexts = s.contexts ∧
    (s.chosen).mover = s.mover ∧ (s.chosen).sending = s.sending ∧ (s.chosen).laneA = s.laneA ∧
    (s.chosen).laneB = s.laneB ∧ (s.chosen).counters = s.counters ∧ (s.chosen).outbox = s.outbox ∧
    (s.chosen).pending = s.pending := by
  simp [State.chosen]

@[simp] theorem issueReads_frame (rs : List (BitVec 64 × Nat)) :
    ((s.issueReads rs).1).host = s.host ∧ ((s.issueReads rs).1).ring = s.ring ∧
    ((s.issueReads rs).1).spill = s.spill ∧ ((s.issueReads rs).1).matching = s.matching ∧
    ((s.issueReads rs).1).peers = s.peers ∧ ((s.issueReads rs).1).contexts = s.contexts ∧
    ((s.issueReads rs).1).mover = s.mover ∧ ((s.issueReads rs).1).sending = s.sending ∧
    ((s.issueReads rs).1).laneA = s.laneA ∧ ((s.issueReads rs).1).laneB = s.laneB ∧
    ((s.issueReads rs).1).counters = s.counters ∧ ((s.issueReads rs).1).pending = s.pending := by
  induction rs generalizing s with
  | nil => simp [State.issueReads]
  | cons w ws ih => simp [State.issueReads, ih]

@[simp] theorem preparePiece_frame (i : Fin 32) :
    (s.preparePiece i).host = s.host ∧ (s.preparePiece i).ring = s.ring ∧ (s.preparePiece i).spill = s.spill ∧
    (s.preparePiece i).matching = s.matching ∧ (s.preparePiece i).peers = s.peers ∧
    (s.preparePiece i).contexts = s.contexts ∧ (s.preparePiece i).mover = s.mover ∧
    (s.preparePiece i).laneA = s.laneA ∧ (s.preparePiece i).laneB = s.laneB ∧
    (s.preparePiece i).counters = s.counters ∧ (s.preparePiece i).pending = s.pending := by
  unfold State.preparePiece; dsimp only [thenGives]; (repeat' split) <;> simp_all

@[simp] theorem takePiece_frame (i : Fin 32) :
    (s.takePiece i).host = s.host ∧ (s.takePiece i).ring = s.ring ∧ (s.takePiece i).spill = s.spill ∧
    (s.takePiece i).matching = s.matching ∧ (s.takePiece i).peers = s.peers ∧
    (s.takePiece i).contexts = s.contexts ∧ (s.takePiece i).mover = s.mover ∧ (s.takePiece i).laneA = s.laneA ∧
    (s.takePiece i).laneB = s.laneB ∧ (s.takePiece i).counters = s.counters ∧
    (s.takePiece i).pending = s.pending := by
  unfold State.takePiece; dsimp only [thenGives]; (repeat' split) <;> simp_all

@[simp] theorem sendData_frame (l : Lane) (i : Fin 32) :
    (s.sendData l i).host = s.host ∧ (s.sendData l i).ring = s.ring ∧ (s.sendData l i).spill = s.spill ∧
    (s.sendData l i).matching = s.matching ∧ (s.sendData l i).peers = s.peers ∧
    (s.sendData l i).contexts = s.contexts ∧ (s.sendData l i).mover = s.mover ∧
    (s.sendData l i).counters = s.counters ∧ (s.sendData l i).pending = s.pending := by
  unfold State.sendData; dsimp only [thenGives]; (repeat' split) <;> simp_all

@[simp] theorem askData_frame (l : Lane) :
    (s.askData l).host = s.host ∧ (s.askData l).ring = s.ring ∧ (s.askData l).spill = s.spill ∧
    (s.askData l).matching = s.matching ∧ (s.askData l).peers = s.peers ∧ (s.askData l).contexts = s.contexts ∧
    (s.askData l).mover = s.mover ∧ (s.askData l).counters = s.counters ∧ (s.askData l).pending = s.pending := by
  unfold State.askData; (repeat' split) <;> simp_all

@[simp] theorem egress_frame :
    (s.egress).host = s.host ∧ (s.egress).ring = s.ring ∧ (s.egress).spill = s.spill ∧
    (s.egress).matching = s.matching ∧ (s.egress).peers = s.peers ∧ (s.egress).contexts = s.contexts ∧
    (s.egress).mover = s.mover ∧ (s.egress).counters = s.counters ∧ (s.egress).pending = s.pending := by
  unfold State.egress; dsimp only [thenGives]; (repeat' split) <;> simp_all

@[simp] theorem resolve_frame (i : Fin 32) :
    (s.resolve i).host = s.host ∧ (s.resolve i).ring = s.ring ∧ (s.resolve i).spill = s.spill ∧
    (s.resolve i).matching = s.matching ∧ (s.resolve i).peers = s.peers ∧ (s.resolve i).contexts = s.contexts ∧
    (s.resolve i).mover = s.mover ∧ (s.resolve i).laneA = s.laneA ∧ (s.resolve i).laneB = s.laneB ∧
    (s.resolve i).counters = s.counters ∧ (s.resolve i).outbox = s.outbox ∧ (s.resolve i).pending = s.pending := by
  unfold State.resolve; dsimp only [thenGives]; (repeat' split) <;> simp_all

@[simp] theorem endSend_frame (i : Fin 32) (st : Status) (dt : BitVec 8) (n : Nat) (u : Bool) (c : Status) :
    ((s.endSend i st dt n u c).1).host = s.host ∧ ((s.endSend i st dt n u c).1).ring = s.ring ∧
    ((s.endSend i st dt n u c).1).spill = s.spill ∧ ((s.endSend i st dt n u c).1).matching = s.matching ∧
    ((s.endSend i st dt n u c).1).peers = s.peers ∧ ((s.endSend i st dt n u c).1).contexts = s.contexts ∧
    ((s.endSend i st dt n u c).1).mover = s.mover ∧ ((s.endSend i st dt n u c).1).laneA = s.laneA ∧
    ((s.endSend i st dt n u c).1).laneB = s.laneB ∧ ((s.endSend i st dt n u c).1).counters = s.counters ∧
    ((s.endSend i st dt n u c).1).outbox = s.outbox ∧ ((s.endSend i st dt n u c).1).pending = s.pending := by
  unfold State.endSend; dsimp only [thenGives]; (repeat' split) <;> simp_all

@[simp] theorem releaseContext_frame (c : Fin 64) :
    (s.releaseContext c).host = s.host ∧ (s.releaseContext c).ring = s.ring ∧
    (s.releaseContext c).spill = s.spill ∧ (s.releaseContext c).matching = s.matching ∧
    (s.releaseContext c).peers = s.peers ∧ (s.releaseContext c).mover = s.mover ∧
    (s.releaseContext c).sending = s.sending ∧ (s.releaseContext c).laneA = s.laneA ∧
    (s.releaseContext c).laneB = s.laneB ∧ (s.releaseContext c).counters = s.counters ∧
    (s.releaseContext c).claims = s.claims ∧ (s.releaseContext c).outbox = s.outbox ∧
    (s.releaseContext c).pending = s.pending := by
  simp [State.releaseContext]

@[simp] theorem freeContext_frame (c : Fin 64) :
    (s.freeContext c).host = s.host ∧ (s.freeContext c).ring = s.ring ∧ (s.freeContext c).spill = s.spill ∧
    (s.freeContext c).matching = s.matching ∧ (s.freeContext c).peers = s.peers ∧
    (s.freeContext c).mover = s.mover ∧ (s.freeContext c).sending = s.sending ∧
    (s.freeContext c).laneA = s.laneA ∧ (s.freeContext c).laneB = s.laneB ∧
    (s.freeContext c).counters = s.counters ∧ (s.freeContext c).outbox = s.outbox ∧
    (s.freeContext c).pending = s.pending := by
  simp [State.freeContext]

@[simp] theorem joinQueue_frame (id : Nat) (w : WaitState) :
    (s.joinQueue id w).host = s.host ∧ (s.joinQueue id w).ring = s.ring ∧ (s.joinQueue id w).spill = s.spill ∧
    (s.joinQueue id w).peers = s.peers ∧ (s.joinQueue id w).contexts = s.contexts ∧
    (s.joinQueue id w).sending = s.sending ∧ (s.joinQueue id w).laneA = s.laneA ∧
    (s.joinQueue id w).laneB = s.laneB ∧ (s.joinQueue id w).counters = s.counters ∧
    (s.joinQueue id w).outbox = s.outbox ∧ (s.joinQueue id w).pending = s.pending := by
  unfold State.joinQueue; dsimp only [thenGives]; (repeat' split) <;> simp_all

@[simp] theorem bind_frame (id : Nat) (r : Receive) (m : Message) :
    (s.bind id r m).host = s.host ∧ (s.bind id r m).ring = s.ring ∧ (s.bind id r m).spill = s.spill ∧
    (s.bind id r m).peers = s.peers ∧ (s.bind id r m).contexts = s.contexts ∧
    (s.bind id r m).sending = s.sending ∧ (s.bind id r m).laneA = s.laneA ∧ (s.bind id r m).laneB = s.laneB ∧
    (s.bind id r m).counters = s.counters ∧ (s.bind id r m).outbox = s.outbox ∧
    (s.bind id r m).pending = s.pending := by
  unfold State.bind; (repeat' split) <;> simp_all

@[simp] theorem testClose_frame (d : Fin 64) :
    ((s.testClose d).1).host = s.host ∧ ((s.testClose d).1).ring = s.ring ∧
    ((s.testClose d).1).spill = s.spill ∧ ((s.testClose d).1).peers = s.peers ∧
    ((s.testClose d).1).contexts = s.contexts ∧ ((s.testClose d).1).mover = s.mover ∧
    ((s.testClose d).1).sending = s.sending ∧ ((s.testClose d).1).laneA = s.laneA ∧
    ((s.testClose d).1).laneB = s.laneB ∧ ((s.testClose d).1).counters = s.counters ∧
    ((s.testClose d).1).claims = s.claims ∧ ((s.testClose d).1).outbox = s.outbox ∧
    ((s.testClose d).1).pending = s.pending := by
  unfold State.testClose; (repeat' split) <;> simp_all

@[simp] theorem finishBound_frame (id : Nat) (st : Status) (dt : BitVec 8) :
    ((s.finishBound id st dt).1).host = s.host ∧ ((s.finishBound id st dt).1).ring = s.ring ∧
    ((s.finishBound id st dt).1).spill = s.spill ∧ ((s.finishBound id st dt).1).peers = s.peers ∧
    ((s.finishBound id st dt).1).contexts = s.contexts ∧ ((s.finishBound id st dt).1).mover = s.mover ∧
    ((s.finishBound id st dt).1).sending = s.sending ∧ ((s.finishBound id st dt).1).laneA = s.laneA ∧
    ((s.finishBound id st dt).1).laneB = s.laneB ∧ ((s.finishBound id st dt).1).counters = s.counters ∧
    ((s.finishBound id st dt).1).claims = s.claims ∧ ((s.finishBound id st dt).1).outbox = s.outbox ∧
    ((s.finishBound id st dt).1).pending = s.pending := by
  unfold State.finishBound; dsimp only [thenGives]; (repeat' split) <;> simp_all

@[simp] theorem endBound_frame (id : Nat) (st : Status) (dt : BitVec 8) :
    ((s.endBound id st dt).1).host = s.host ∧ ((s.endBound id st dt).1).ring = s.ring ∧
    ((s.endBound id st dt).1).spill = s.spill ∧ ((s.endBound id st dt).1).peers = s.peers ∧
    ((s.endBound id st dt).1).contexts = s.contexts ∧ ((s.endBound id st dt).1).mover = s.mover ∧
    ((s.endBound id st dt).1).sending = s.sending ∧ ((s.endBound id st dt).1).laneA = s.laneA ∧
    ((s.endBound id st dt).1).laneB = s.laneB ∧ ((s.endBound id st dt).1).counters = s.counters ∧
    ((s.endBound id st dt).1).claims = s.claims ∧ ((s.endBound id st dt).1).outbox = s.outbox ∧
    ((s.endBound id st dt).1).pending = s.pending := by
  unfold State.endBound; dsimp only [thenGives]; (repeat' split) <;> simp_all

@[simp] theorem deliver_frame (id : Nat) :
    ((s.deliver id).1).host = s.host ∧ ((s.deliver id).1).ring = s.ring ∧ ((s.deliver id).1).spill = s.spill ∧
    ((s.deliver id).1).peers = s.peers ∧ ((s.deliver id).1).contexts = s.contexts ∧
    ((s.deliver id).1).mover = s.mover ∧ ((s.deliver id).1).sending = s.sending ∧
    ((s.deliver id).1).laneA = s.laneA ∧ ((s.deliver id).1).laneB = s.laneB ∧
    ((s.deliver id).1).counters = s.counters ∧ ((s.deliver id).1).claims = s.claims ∧
    ((s.deliver id).1).outbox = s.outbox ∧ ((s.deliver id).1).pending = s.pending := by
  unfold State.deliver; (repeat' split) <;> simp_all

@[simp] theorem dropHeld_frame (n : Node) (id : Nat) :
    (s.dropHeld n id).host = s.host ∧ (s.dropHeld n id).ring = s.ring ∧ (s.dropHeld n id).spill = s.spill ∧
    (s.dropHeld n id).matching = s.matching ∧ (s.dropHeld n id).contexts = s.contexts ∧
    (s.dropHeld n id).mover = s.mover ∧ (s.dropHeld n id).sending = s.sending ∧
    (s.dropHeld n id).laneA = s.laneA ∧ (s.dropHeld n id).laneB = s.laneB ∧
    (s.dropHeld n id).counters = s.counters ∧ (s.dropHeld n id).claims = s.claims ∧
    (s.dropHeld n id).outbox = s.outbox ∧ (s.dropHeld n id).pending = s.pending := by
  simp [State.dropHeld]

@[simp] theorem removeUnexpected_frame (e : Entry) :
    (s.removeUnexpected e).host = s.host ∧ (s.removeUnexpected e).ring = s.ring ∧
    (s.removeUnexpected e).spill = s.spill ∧ (s.removeUnexpected e).contexts = s.contexts ∧
    (s.removeUnexpected e).mover = s.mover ∧ (s.removeUnexpected e).sending = s.sending ∧
    (s.removeUnexpected e).laneA = s.laneA ∧ (s.removeUnexpected e).laneB = s.laneB ∧
    (s.removeUnexpected e).counters = s.counters ∧ (s.removeUnexpected e).claims = s.claims ∧
    (s.removeUnexpected e).outbox = s.outbox ∧ (s.removeUnexpected e).pending = s.pending := by
  unfold State.removeUnexpected; dsimp only [thenGives]; (repeat' split) <;> simp_all

@[simp] theorem discard_frame (k : ReleaseCause) (e : Entry) :
    ((s.discard k e).1).host = s.host ∧ ((s.discard k e).1).ring = s.ring ∧
    ((s.discard k e).1).spill = s.spill ∧ ((s.discard k e).1).mover = s.mover ∧
    ((s.discard k e).1).sending = s.sending ∧ ((s.discard k e).1).laneA = s.laneA ∧
    ((s.discard k e).1).laneB = s.laneB ∧ ((s.discard k e).1).counters = s.counters ∧
    ((s.discard k e).1).outbox = s.outbox ∧ ((s.discard k e).1).pending = s.pending := by
  unfold State.discard; dsimp only [thenGives]; (repeat' split) <;> simp_all

@[simp] theorem discardId_frame (k : ReleaseCause) (id : Nat) :
    ((s.discardId k id).1).host = s.host ∧ ((s.discardId k id).1).ring = s.ring ∧
    ((s.discardId k id).1).spill = s.spill ∧ ((s.discardId k id).1).mover = s.mover ∧
    ((s.discardId k id).1).sending = s.sending ∧ ((s.discardId k id).1).laneA = s.laneA ∧
    ((s.discardId k id).1).laneB = s.laneB ∧ ((s.discardId k id).1).counters = s.counters ∧
    ((s.discardId k id).1).outbox = s.outbox ∧ ((s.discardId k id).1).pending = s.pending := by
  unfold State.discardId; (repeat' split) <;> simp_all

@[simp] theorem discardRestarted_frame (id : Nat) :
    ((s.discardRestarted id).1).host = s.host ∧ ((s.discardRestarted id).1).ring = s.ring ∧
    ((s.discardRestarted id).1).spill = s.spill ∧ ((s.discardRestarted id).1).contexts = s.contexts ∧
    ((s.discardRestarted id).1).mover = s.mover ∧ ((s.discardRestarted id).1).sending = s.sending ∧
    ((s.discardRestarted id).1).laneA = s.laneA ∧ ((s.discardRestarted id).1).laneB = s.laneB ∧
    ((s.discardRestarted id).1).counters = s.counters ∧ ((s.discardRestarted id).1).claims = s.claims ∧
    ((s.discardRestarted id).1).outbox = s.outbox ∧ ((s.discardRestarted id).1).pending = s.pending := by
  unfold State.discardRestarted; (repeat' split) <;> simp_all

@[simp] theorem takePostRecv_frame (r : Request) :
    ((s.takePostRecv r).1).spill = s.spill ∧ ((s.takePostRecv r).1).peers = s.peers ∧
    ((s.takePostRecv r).1).contexts = s.contexts ∧ ((s.takePostRecv r).1).sending = s.sending ∧
    ((s.takePostRecv r).1).laneA = s.laneA ∧ ((s.takePostRecv r).1).laneB = s.laneB ∧
    ((s.takePostRecv r).1).pending = s.pending := by
  unfold State.takePostRecv; dsimp only [thenGives]; (repeat' split) <;> simp_all

@[simp] theorem endPosted_frame (id : Nat) (st : Status) :
    ((s.endPosted id st).1).host = s.host ∧ ((s.endPosted id st).1).ring = s.ring ∧
    ((s.endPosted id st).1).spill = s.spill ∧ ((s.endPosted id st).1).peers = s.peers ∧
    ((s.endPosted id st).1).contexts = s.contexts ∧ ((s.endPosted id st).1).mover = s.mover ∧
    ((s.endPosted id st).1).sending = s.sending ∧ ((s.endPosted id st).1).laneA = s.laneA ∧
    ((s.endPosted id st).1).laneB = s.laneB ∧ ((s.endPosted id st).1).counters = s.counters ∧
    ((s.endPosted id st).1).claims = s.claims ∧ ((s.endPosted id st).1).outbox = s.outbox ∧
    ((s.endPosted id st).1).pending = s.pending := by
  unfold State.endPosted; (repeat' split) <;> simp_all

@[simp] theorem takeCancelRecv_frame (r : Request) :
    ((s.takeCancelRecv r).1).host = s.host ∧ ((s.takeCancelRecv r).1).ring = s.ring ∧
    ((s.takeCancelRecv r).1).spill = s.spill ∧ ((s.takeCancelRecv r).1).peers = s.peers ∧
    ((s.takeCancelRecv r).1).contexts = s.contexts ∧ ((s.takeCancelRecv r).1).mover = s.mover ∧
    ((s.takeCancelRecv r).1).sending = s.sending ∧ ((s.takeCancelRecv r).1).laneA = s.laneA ∧
    ((s.takeCancelRecv r).1).laneB = s.laneB ∧ ((s.takeCancelRecv r).1).counters = s.counters ∧
    ((s.takeCancelRecv r).1).claims = s.claims ∧ ((s.takeCancelRecv r).1).outbox = s.outbox ∧
    ((s.takeCancelRecv r).1).pending = s.pending := by
  unfold State.takeCancelRecv; dsimp only [thenGives]; (repeat' split) <;> simp_all

@[simp] theorem takeDomainOpen_frame (r : Request) :
    ((s.takeDomainOpen r).1).host = s.host ∧ ((s.takeDomainOpen r).1).ring = s.ring ∧
    ((s.takeDomainOpen r).1).spill = s.spill ∧ ((s.takeDomainOpen r).1).peers = s.peers ∧
    ((s.takeDomainOpen r).1).contexts = s.contexts ∧ ((s.takeDomainOpen r).1).mover = s.mover ∧
    ((s.takeDomainOpen r).1).sending = s.sending ∧ ((s.takeDomainOpen r).1).laneA = s.laneA ∧
    ((s.takeDomainOpen r).1).laneB = s.laneB ∧ ((s.takeDomainOpen r).1).counters = s.counters ∧
    ((s.takeDomainOpen r).1).claims = s.claims ∧ ((s.takeDomainOpen r).1).outbox = s.outbox ∧
    ((s.takeDomainOpen r).1).pending = s.pending := by
  unfold State.takeDomainOpen; dsimp only [thenGives]; (repeat' split) <;> simp_all

@[simp] theorem serveEntry_frame (c : Fin 64) (id : Nat) :
    (s.serveEntry c id).host = s.host ∧ (s.serveEntry c id).ring = s.ring ∧
    (s.serveEntry c id).spill = s.spill ∧ (s.serveEntry c id).matching = s.matching ∧
    (s.serveEntry c id).peers = s.peers ∧ (s.serveEntry c id).mover = s.mover ∧
    (s.serveEntry c id).sending = s.sending ∧ (s.serveEntry c id).laneA = s.laneA ∧
    (s.serveEntry c id).laneB = s.laneB ∧ (s.serveEntry c id).counters = s.counters ∧
    (s.serveEntry c id).claims = s.claims ∧ (s.serveEntry c id).outbox = s.outbox ∧
    (s.serveEntry c id).pending = s.pending := by
  unfold State.serveEntry; (repeat' split) <;> simp_all

@[simp] theorem release_frame (id : Nat) :
    (s.release id).host = s.host ∧ (s.release id).ring = s.ring ∧ (s.release id).spill = s.spill ∧
    (s.release id).peers = s.peers ∧ (s.release id).sending = s.sending ∧ (s.release id).laneA = s.laneA ∧
    (s.release id).laneB = s.laneB ∧ (s.release id).counters = s.counters ∧ (s.release id).outbox = s.outbox ∧
    (s.release id).pending = s.pending := by
  unfold State.release; dsimp only [thenGives]; (repeat' split) <;> simp_all

@[simp] theorem allocateContext_frame (c : Fin 64) (b : ContextBody) :
    (s.allocateContext c b).host = s.host ∧ (s.allocateContext c b).ring = s.ring ∧
    (s.allocateContext c b).spill = s.spill ∧ (s.allocateContext c b).matching = s.matching ∧
    (s.allocateContext c b).peers = s.peers ∧ (s.allocateContext c b).mover = s.mover ∧
    (s.allocateContext c b).sending = s.sending ∧ (s.allocateContext c b).laneA = s.laneA ∧
    (s.allocateContext c b).laneB = s.laneB ∧ (s.allocateContext c b).counters = s.counters ∧
    (s.allocateContext c b).claims = s.claims ∧ (s.allocateContext c b).outbox = s.outbox ∧
    (s.allocateContext c b).pending = s.pending := by
  simp [State.allocateContext]

@[simp] theorem renewContext_frame (c : Fin 64) (b : ContextBody) :
    (s.renewContext c b).host = s.host ∧ (s.renewContext c b).ring = s.ring ∧
    (s.renewContext c b).spill = s.spill ∧ (s.renewContext c b).matching = s.matching ∧
    (s.renewContext c b).peers = s.peers ∧ (s.renewContext c b).mover = s.mover ∧
    (s.renewContext c b).sending = s.sending ∧ (s.renewContext c b).laneA = s.laneA ∧
    (s.renewContext c b).laneB = s.laneB ∧ (s.renewContext c b).counters = s.counters ∧
    (s.renewContext c b).claims = s.claims ∧ (s.renewContext c b).outbox = s.outbox ∧
    (s.renewContext c b).pending = s.pending := by
  simp [State.renewContext]

@[simp] theorem stale_frame :
    (s.stale).host = s.host ∧ (s.stale).ring = s.ring ∧ (s.stale).spill = s.spill ∧
    (s.stale).matching = s.matching ∧ (s.stale).peers = s.peers ∧ (s.stale).contexts = s.contexts ∧
    (s.stale).mover = s.mover ∧ (s.stale).sending = s.sending ∧ (s.stale).laneA = s.laneA ∧
    (s.stale).laneB = s.laneB ∧ (s.stale).claims = s.claims ∧ (s.stale).outbox = s.outbox ∧
    (s.stale).pending = s.pending := by
  simp [State.stale]

@[simp] theorem fragmentMismatch_frame (n : Node) (q : Seq) (k : BitVec 32) :
    (s.fragmentMismatch n q k).spill = s.spill ∧ (s.fragmentMismatch n q k).matching = s.matching ∧
    (s.fragmentMismatch n q k).peers = s.peers ∧ (s.fragmentMismatch n q k).contexts = s.contexts ∧
    (s.fragmentMismatch n q k).mover = s.mover ∧ (s.fragmentMismatch n q k).sending = s.sending ∧
    (s.fragmentMismatch n q k).laneA = s.laneA ∧ (s.fragmentMismatch n q k).laneB = s.laneB ∧
    (s.fragmentMismatch n q k).claims = s.claims ∧ (s.fragmentMismatch n q k).pending = s.pending := by
  unfold State.fragmentMismatch; (repeat' split) <;> simp_all

@[simp] theorem takeFragment_frame (c : Fin 64) (l : Lane) (f : Frame) :
    ((s.takeFragment c l f).1).spill = s.spill ∧ ((s.takeFragment c l f).1).matching = s.matching ∧
    ((s.takeFragment c l f).1).peers = s.peers ∧ ((s.takeFragment c l f).1).mover = s.mover ∧
    ((s.takeFragment c l f).1).sending = s.sending ∧ ((s.takeFragment c l f).1).laneA = s.laneA ∧
    ((s.takeFragment c l f).1).laneB = s.laneB ∧ ((s.takeFragment c l f).1).claims = s.claims ∧
    ((s.takeFragment c l f).1).pending = s.pending := by
  unfold State.takeFragment; dsimp only [thenGives]; (repeat' split) <;> simp_all

@[simp] theorem takePdata_frame (l : Lane) (f : Frame) :
    ((s.takePdata l f).1).spill = s.spill ∧ ((s.takePdata l f).1).matching = s.matching ∧
    ((s.takePdata l f).1).peers = s.peers ∧ ((s.takePdata l f).1).mover = s.mover ∧
    ((s.takePdata l f).1).sending = s.sending ∧ ((s.takePdata l f).1).laneA = s.laneA ∧
    ((s.takePdata l f).1).laneB = s.laneB ∧ ((s.takePdata l f).1).claims = s.claims ∧
    ((s.takePdata l f).1).pending = s.pending := by
  unfold State.takePdata; dsimp only [thenGives]; (repeat' split) <;> simp_all

@[simp] theorem fillComplete_frame (id : Nat) :
    (s.fillComplete id).host = s.host ∧ (s.fillComplete id).ring = s.ring ∧
    (s.fillComplete id).spill = s.spill ∧ (s.fillComplete id).peers = s.peers ∧
    (s.fillComplete id).contexts = s.contexts ∧ (s.fillComplete id).sending = s.sending ∧
    (s.fillComplete id).laneA = s.laneA ∧ (s.fillComplete id).laneB = s.laneB ∧
    (s.fillComplete id).counters = s.counters ∧ (s.fillComplete id).outbox = s.outbox ∧
    (s.fillComplete id).pending = s.pending := by
  unfold State.fillComplete; (repeat' split) <;> simp_all

@[simp] theorem dataLost_frame (id : Nat) :
    ((s.dataLost id).1).host = s.host ∧ ((s.dataLost id).1).ring = s.ring ∧
    ((s.dataLost id).1).spill = s.spill ∧ ((s.dataLost id).1).contexts = s.contexts ∧
    ((s.dataLost id).1).mover = s.mover ∧ ((s.dataLost id).1).sending = s.sending ∧
    ((s.dataLost id).1).laneA = s.laneA ∧ ((s.dataLost id).1).laneB = s.laneB ∧
    ((s.dataLost id).1).counters = s.counters ∧ ((s.dataLost id).1).claims = s.claims ∧
    ((s.dataLost id).1).outbox = s.outbox ∧ ((s.dataLost id).1).pending = s.pending := by
  unfold State.dataLost; (repeat' split) <;> simp_all

@[simp] theorem takeReport_frame (c : Fin 64) (h : ContextEnd) :
    ((s.takeReport c h).1).host = s.host ∧ ((s.takeReport c h).1).ring = s.ring ∧
    ((s.takeReport c h).1).spill = s.spill ∧ ((s.takeReport c h).1).contexts = s.contexts ∧
    ((s.takeReport c h).1).sending = s.sending ∧ ((s.takeReport c h).1).laneA = s.laneA ∧
    ((s.takeReport c h).1).laneB = s.laneB ∧ ((s.takeReport c h).1).counters = s.counters ∧
    ((s.takeReport c h).1).outbox = s.outbox ∧ ((s.takeReport c h).1).pending = s.pending := by
  unfold State.takeReport; (repeat' split) <;> simp_all

@[simp] theorem takePullService_frame :
    (s.takePullService.1).host = s.host ∧ (s.takePullService.1).ring = s.ring ∧
    (s.takePullService.1).spill = s.spill ∧ (s.takePullService.1).peers = s.peers ∧
    (s.takePullService.1).mover = s.mover ∧ (s.takePullService.1).sending = s.sending ∧
    (s.takePullService.1).laneA = s.laneA ∧ (s.takePullService.1).laneB = s.laneB ∧
    (s.takePullService.1).counters = s.counters ∧ (s.takePullService.1).outbox = s.outbox ∧
    (s.takePullService.1).pending = s.pending := by
  unfold State.takePullService State.endZeroPull State.startPull; dsimp only [thenGives]; (repeat' split) <;> simp_all

@[simp] theorem takeSend_frame (r : Request) :
    ((s.takeSend r).1).host = s.host ∧ ((s.takeSend r).1).ring = s.ring ∧ ((s.takeSend r).1).spill = s.spill ∧
    ((s.takeSend r).1).matching = s.matching ∧ ((s.takeSend r).1).peers = s.peers ∧
    ((s.takeSend r).1).contexts = s.contexts ∧ ((s.takeSend r).1).mover = s.mover ∧
    ((s.takeSend r).1).laneA = s.laneA ∧ ((s.takeSend r).1).laneB = s.laneB ∧
    ((s.takeSend r).1).counters = s.counters ∧ ((s.takeSend r).1).outbox = s.outbox ∧
    ((s.takeSend r).1).pending = s.pending := by
  unfold State.takeSend; dsimp only [thenGives]; (repeat' split) <;> simp_all

@[simp] theorem startRetracting_frame (i : Fin 32) (c : PendingCancel) :
    (s.startRetracting i c).host = s.host ∧ (s.startRetracting i c).ring = s.ring ∧
    (s.startRetracting i c).spill = s.spill ∧ (s.startRetracting i c).matching = s.matching ∧
    (s.startRetracting i c).peers = s.peers ∧ (s.startRetracting i c).contexts = s.contexts ∧
    (s.startRetracting i c).mover = s.mover ∧ (s.startRetracting i c).laneA = s.laneA ∧
    (s.startRetracting i c).laneB = s.laneB ∧ (s.startRetracting i c).counters = s.counters ∧
    (s.startRetracting i c).claims = s.claims ∧ (s.startRetracting i c).outbox = s.outbox ∧
    (s.startRetracting i c).pending = s.pending := by
  unfold State.startRetracting; dsimp only; split <;> simp

@[simp] theorem takeCancelSend_frame (r : Request) :
    ((s.takeCancelSend r).1).host = s.host ∧ ((s.takeCancelSend r).1).ring = s.ring ∧
    ((s.takeCancelSend r).1).spill = s.spill ∧ ((s.takeCancelSend r).1).matching = s.matching ∧
    ((s.takeCancelSend r).1).peers = s.peers ∧ ((s.takeCancelSend r).1).contexts = s.contexts ∧
    ((s.takeCancelSend r).1).mover = s.mover ∧ ((s.takeCancelSend r).1).laneA = s.laneA ∧
    ((s.takeCancelSend r).1).laneB = s.laneB ∧ ((s.takeCancelSend r).1).counters = s.counters ∧
    ((s.takeCancelSend r).1).claims = s.claims ∧ ((s.takeCancelSend r).1).outbox = s.outbox ∧
    ((s.takeCancelSend r).1).pending = s.pending := by
  unfold State.takeCancelSend; dsimp only [thenGives]; (repeat' split) <;> simp_all

@[simp] theorem allocateTo_frame (b : Backlogged) (i : Fin 32) :
    ((s.allocateTo b i).1).host = s.host ∧ ((s.allocateTo b i).1).ring = s.ring ∧
    ((s.allocateTo b i).1).spill = s.spill ∧ ((s.allocateTo b i).1).matching = s.matching ∧
    ((s.allocateTo b i).1).peers = s.peers ∧ ((s.allocateTo b i).1).contexts = s.contexts ∧
    ((s.allocateTo b i).1).mover = s.mover ∧ ((s.allocateTo b i).1).laneA = s.laneA ∧
    ((s.allocateTo b i).1).laneB = s.laneB ∧ ((s.allocateTo b i).1).counters = s.counters ∧
    ((s.allocateTo b i).1).pending = s.pending := by
  unfold State.allocateTo; dsimp only [thenGives]; (repeat' split) <;> simp_all

@[simp] theorem takeAllocation_frame :
    (s.takeAllocation.1).host = s.host ∧ (s.takeAllocation.1).ring = s.ring ∧
    (s.takeAllocation.1).spill = s.spill ∧ (s.takeAllocation.1).matching = s.matching ∧
    (s.takeAllocation.1).peers = s.peers ∧ (s.takeAllocation.1).contexts = s.contexts ∧
    (s.takeAllocation.1).mover = s.mover ∧ (s.takeAllocation.1).laneA = s.laneA ∧
    (s.takeAllocation.1).laneB = s.laneB ∧ (s.takeAllocation.1).counters = s.counters ∧
    (s.takeAllocation.1).pending = s.pending := by
  unfold State.takeAllocation; (repeat' split) <;> simp_all

@[simp] theorem startStream_frame (i : Fin 32) (l : Lane) (f : Frame) :
    (s.startStream i l f).host = s.host ∧ (s.startStream i l f).ring = s.ring ∧
    (s.startStream i l f).spill = s.spill ∧ (s.startStream i l f).matching = s.matching ∧
    (s.startStream i l f).peers = s.peers ∧ (s.startStream i l f).contexts = s.contexts ∧
    (s.startStream i l f).mover = s.mover ∧ (s.startStream i l f).laneA = s.laneA ∧
    (s.startStream i l f).laneB = s.laneB ∧ (s.startStream i l f).counters = s.counters ∧
    (s.startStream i l f).pending = s.pending := by
  unfold State.startStream; dsimp only [thenGives]; (repeat' split) <;> simp_all

@[simp] theorem takePull_frame (l : Lane) (f : Frame) :
    ((s.takePull l f).1).spill = s.spill ∧ ((s.takePull l f).1).matching = s.matching ∧
    ((s.takePull l f).1).peers = s.peers ∧ ((s.takePull l f).1).contexts = s.contexts ∧
    ((s.takePull l f).1).mover = s.mover ∧ ((s.takePull l f).1).laneA = s.laneA ∧
    ((s.takePull l f).1).laneB = s.laneB ∧ ((s.takePull l f).1).pending = s.pending := by
  unfold State.takePull; dsimp only [thenGives]; (repeat' split) <;> simp_all

@[simp] theorem takeAck_frame (f : Frame) :
    ((s.takeAck f).1).host = s.host ∧ ((s.takeAck f).1).ring = s.ring ∧ ((s.takeAck f).1).spill = s.spill ∧
    ((s.takeAck f).1).matching = s.matching ∧ ((s.takeAck f).1).peers = s.peers ∧
    ((s.takeAck f).1).contexts = s.contexts ∧ ((s.takeAck f).1).mover = s.mover ∧
    ((s.takeAck f).1).laneA = s.laneA ∧ ((s.takeAck f).1).laneB = s.laneB ∧
    ((s.takeAck f).1).outbox = s.outbox ∧ ((s.takeAck f).1).pending = s.pending := by
  unfold State.takeAck; dsimp only [thenGives]; (repeat' split) <;> simp_all

@[simp] theorem takeRefuse_frame (f : Frame) :
    ((s.takeRefuse f).1).host = s.host ∧ ((s.takeRefuse f).1).ring = s.ring ∧
    ((s.takeRefuse f).1).spill = s.spill ∧ ((s.takeRefuse f).1).matching = s.matching ∧
    ((s.takeRefuse f).1).peers = s.peers ∧ ((s.takeRefuse f).1).contexts = s.contexts ∧
    ((s.takeRefuse f).1).mover = s.mover ∧ ((s.takeRefuse f).1).laneA = s.laneA ∧
    ((s.takeRefuse f).1).laneB = s.laneB ∧ ((s.takeRefuse f).1).outbox = s.outbox ∧
    ((s.takeRefuse f).1).pending = s.pending := by
  unfold State.takeRefuse; dsimp only [thenGives]; (repeat' split) <;> simp_all

@[simp] theorem takeAbort_frame (f : Frame) :
    ((s.takeAbort f).1).host = s.host ∧ ((s.takeAbort f).1).ring = s.ring ∧
    ((s.takeAbort f).1).spill = s.spill ∧ ((s.takeAbort f).1).matching = s.matching ∧
    ((s.takeAbort f).1).peers = s.peers ∧ ((s.takeAbort f).1).contexts = s.contexts ∧
    ((s.takeAbort f).1).mover = s.mover ∧ ((s.takeAbort f).1).laneA = s.laneA ∧
    ((s.takeAbort f).1).laneB = s.laneB ∧ ((s.takeAbort f).1).outbox = s.outbox ∧
    ((s.takeAbort f).1).pending = s.pending := by
  unfold State.takeAbort; dsimp only [thenGives]; (repeat' split) <;> simp_all

@[simp] theorem takeAnswer_frame (l : Lane) (f : Frame) :
    ((s.takeAnswer l f).1).spill = s.spill ∧ ((s.takeAnswer l f).1).matching = s.matching ∧
    ((s.takeAnswer l f).1).peers = s.peers ∧ ((s.takeAnswer l f).1).contexts = s.contexts ∧
    ((s.takeAnswer l f).1).mover = s.mover ∧ ((s.takeAnswer l f).1).laneA = s.laneA ∧
    ((s.takeAnswer l f).1).laneB = s.laneB ∧ ((s.takeAnswer l f).1).pending = s.pending := by
  unfold State.takeAnswer; (repeat' split) <;> simp_all

@[simp] theorem retire_frame (i : Fin 32) (p : Piece) :
    (s.retire i p).host = s.host ∧ (s.retire i p).ring = s.ring ∧ (s.retire i p).spill = s.spill ∧
    (s.retire i p).matching = s.matching ∧ (s.retire i p).peers = s.peers ∧
    (s.retire i p).contexts = s.contexts ∧ (s.retire i p).mover = s.mover ∧ (s.retire i p).laneA = s.laneA ∧
    (s.retire i p).laneB = s.laneB ∧ (s.retire i p).counters = s.counters ∧ (s.retire i p).outbox = s.outbox ∧
    (s.retire i p).pending = s.pending := by
  unfold State.retire; dsimp only [thenGives]; (repeat' split) <;> simp_all

@[simp] theorem takeEndSend_frame (i : Fin 32) (st : Status) (d : BitVec 8) :
    ((s.takeEndSend i st d).1).host = s.host ∧ ((s.takeEndSend i st d).1).ring = s.ring ∧
    ((s.takeEndSend i st d).1).spill = s.spill ∧ ((s.takeEndSend i st d).1).matching = s.matching ∧
    ((s.takeEndSend i st d).1).peers = s.peers ∧ ((s.takeEndSend i st d).1).contexts = s.contexts ∧
    ((s.takeEndSend i st d).1).mover = s.mover ∧ ((s.takeEndSend i st d).1).laneA = s.laneA ∧
    ((s.takeEndSend i st d).1).laneB = s.laneB ∧ ((s.takeEndSend i st d).1).counters = s.counters ∧
    ((s.takeEndSend i st d).1).outbox = s.outbox ∧ ((s.takeEndSend i st d).1).pending = s.pending := by
  unfold State.takeEndSend; split <;> simp

@[simp] theorem takeReadReturn_frame (t : Nat) (b : Bytes) :
    (s.takeReadReturn t b).host = s.host ∧ (s.takeReadReturn t b).ring = s.ring ∧
    (s.takeReadReturn t b).spill = s.spill ∧ (s.takeReadReturn t b).matching = s.matching ∧
    (s.takeReadReturn t b).peers = s.peers ∧ (s.takeReadReturn t b).contexts = s.contexts ∧
    (s.takeReadReturn t b).mover = s.mover ∧ (s.takeReadReturn t b).laneA = s.laneA ∧
    (s.takeReadReturn t b).laneB = s.laneB ∧ (s.takeReadReturn t b).counters = s.counters ∧
    (s.takeReadReturn t b).outbox = s.outbox ∧ (s.takeReadReturn t b).pending = s.pending := by
  unfold State.takeReadReturn; dsimp only [thenGives]; (repeat' split) <;> simp_all

@[simp] theorem takeReadError_frame (t : Nat) :
    ((s.takeReadError t).1).host = s.host ∧ ((s.takeReadError t).1).ring = s.ring ∧
    ((s.takeReadError t).1).spill = s.spill ∧ ((s.takeReadError t).1).matching = s.matching ∧
    ((s.takeReadError t).1).peers = s.peers ∧ ((s.takeReadError t).1).contexts = s.contexts ∧
    ((s.takeReadError t).1).mover = s.mover ∧ ((s.takeReadError t).1).laneA = s.laneA ∧
    ((s.takeReadError t).1).laneB = s.laneB ∧ ((s.takeReadError t).1).counters = s.counters ∧
    ((s.takeReadError t).1).outbox = s.outbox ∧ ((s.takeReadError t).1).pending = s.pending := by
  unfold State.takeReadError; dsimp only [thenGives]; (repeat' split) <;> simp_all

@[simp] theorem takeResponseExpiry_frame (i : Fin 32) :
    ((s.takeResponseExpiry i).1).host = s.host ∧ ((s.takeResponseExpiry i).1).ring = s.ring ∧
    ((s.takeResponseExpiry i).1).spill = s.spill ∧ ((s.takeResponseExpiry i).1).matching = s.matching ∧
    ((s.takeResponseExpiry i).1).peers = s.peers ∧ ((s.takeResponseExpiry i).1).contexts = s.contexts ∧
    ((s.takeResponseExpiry i).1).mover = s.mover ∧ ((s.takeResponseExpiry i).1).laneA = s.laneA ∧
    ((s.takeResponseExpiry i).1).laneB = s.laneB ∧ ((s.takeResponseExpiry i).1).outbox = s.outbox ∧
    ((s.takeResponseExpiry i).1).pending = s.pending := by
  unfold State.takeResponseExpiry; (repeat' split) <;> simp_all

@[simp] theorem issueChunk_frame (k : Fin 4) (d : Drain) :
    (s.issueChunk k d).host = s.host ∧ (s.issueChunk k d).ring = s.ring ∧ (s.issueChunk k d).spill = s.spill ∧
    (s.issueChunk k d).matching = s.matching ∧ (s.issueChunk k d).peers = s.peers ∧
    (s.issueChunk k d).contexts = s.contexts ∧ (s.issueChunk k d).sending = s.sending ∧
    (s.issueChunk k d).laneA = s.laneA ∧ (s.issueChunk k d).laneB = s.laneB ∧
    (s.issueChunk k d).counters = s.counters ∧ (s.issueChunk k d).pending = s.pending := by
  simp [State.issueChunk]

@[simp] theorem issueChunks_frame (k : Fin 4) (n : Nat) :
    (s.issueChunks k n).host = s.host ∧ (s.issueChunks k n).ring = s.ring ∧
    (s.issueChunks k n).spill = s.spill ∧ (s.issueChunks k n).matching = s.matching ∧
    (s.issueChunks k n).peers = s.peers ∧ (s.issueChunks k n).contexts = s.contexts ∧
    (s.issueChunks k n).sending = s.sending ∧ (s.issueChunks k n).laneA = s.laneA ∧
    (s.issueChunks k n).laneB = s.laneB ∧ (s.issueChunks k n).counters = s.counters ∧
    (s.issueChunks k n).pending = s.pending := by
  induction n generalizing s with
  | zero => simp [State.issueChunks]
  | succ n ih => unfold State.issueChunks; (repeat' split) <;> simp_all

@[simp] theorem readOn_frame (k : Fin 4) (n : Nat) :
    (s.readOn k n).host = s.host ∧ (s.readOn k n).ring = s.ring ∧ (s.readOn k n).spill = s.spill ∧
    (s.readOn k n).matching = s.matching ∧ (s.readOn k n).peers = s.peers ∧
    (s.readOn k n).contexts = s.contexts ∧ (s.readOn k n).sending = s.sending ∧
    (s.readOn k n).laneA = s.laneA ∧ (s.readOn k n).laneB = s.laneB ∧ (s.readOn k n).counters = s.counters ∧
    (s.readOn k n).pending = s.pending := by
  unfold State.readOn; (repeat' split) <;> simp_all

@[simp] theorem takeDrainStart_frame (n : Nat) :
    ((s.takeDrainStart n).1).host = s.host ∧ ((s.takeDrainStart n).1).ring = s.ring ∧
    ((s.takeDrainStart n).1).spill = s.spill ∧ ((s.takeDrainStart n).1).peers = s.peers ∧
    ((s.takeDrainStart n).1).contexts = s.contexts ∧ ((s.takeDrainStart n).1).sending = s.sending ∧
    ((s.takeDrainStart n).1).laneA = s.laneA ∧ ((s.takeDrainStart n).1).laneB = s.laneB ∧
    ((s.takeDrainStart n).1).counters = s.counters ∧ ((s.takeDrainStart n).1).pending = s.pending := by
  unfold State.takeDrainStart State.startDrain; dsimp only [thenGives]; (repeat' split) <;> simp_all

@[simp] theorem takeChunk_frame (t : Nat) (b : Bytes) (n : Nat) :
    ((s.takeChunk t b n).1).host = s.host ∧ ((s.takeChunk t b n).1).ring = s.ring ∧
    ((s.takeChunk t b n).1).spill = s.spill ∧ ((s.takeChunk t b n).1).matching = s.matching ∧
    ((s.takeChunk t b n).1).peers = s.peers ∧ ((s.takeChunk t b n).1).contexts = s.contexts ∧
    ((s.takeChunk t b n).1).sending = s.sending ∧ ((s.takeChunk t b n).1).laneA = s.laneA ∧
    ((s.takeChunk t b n).1).laneB = s.laneB ∧ ((s.takeChunk t b n).1).counters = s.counters ∧
    ((s.takeChunk t b n).1).pending = s.pending := by
  unfold State.takeChunk; dsimp only [thenGives]; (repeat' split) <;> simp_all

@[simp] theorem takeDrainEnd_frame (k : Fin 4) :
    ((s.takeDrainEnd k).1).host = s.host ∧ ((s.takeDrainEnd k).1).ring = s.ring ∧
    ((s.takeDrainEnd k).1).spill = s.spill ∧ ((s.takeDrainEnd k).1).peers = s.peers ∧
    ((s.takeDrainEnd k).1).contexts = s.contexts ∧ ((s.takeDrainEnd k).1).mover = s.mover ∧
    ((s.takeDrainEnd k).1).sending = s.sending ∧ ((s.takeDrainEnd k).1).laneA = s.laneA ∧
    ((s.takeDrainEnd k).1).laneB = s.laneB ∧ ((s.takeDrainEnd k).1).claims = s.claims ∧
    ((s.takeDrainEnd k).1).outbox = s.outbox ∧ ((s.takeDrainEnd k).1).pending = s.pending := by
  unfold State.takeDrainEnd; (repeat' split) <;> simp_all

@[simp] theorem changePart_frame (p : PartState) :
    (s.changePart p).spill = s.spill ∧ (s.changePart p).matching = s.matching ∧
    (s.changePart p).peers = s.peers ∧ (s.changePart p).contexts = s.contexts ∧
    (s.changePart p).mover = s.mover ∧ (s.changePart p).sending = s.sending ∧
    (s.changePart p).laneA = s.laneA ∧ (s.changePart p).laneB = s.laneB ∧ (s.changePart p).claims = s.claims ∧
    (s.changePart p).pending = s.pending := by
  unfold State.changePart; dsimp only [thenGives]; (repeat' split) <;> simp_all

@[simp] theorem stopTest_frame :
    (s.stopTest).spill = s.spill ∧ (s.stopTest).matching = s.matching ∧ (s.stopTest).peers = s.peers ∧
    (s.stopTest).contexts = s.contexts ∧ (s.stopTest).mover = s.mover ∧ (s.stopTest).sending = s.sending ∧
    (s.stopTest).laneA = s.laneA ∧ (s.stopTest).laneB = s.laneB ∧ (s.stopTest).claims = s.claims ∧
    (s.stopTest).pending = s.pending := by
  unfold State.stopTest; (repeat' split) <;> simp_all

@[simp] theorem takeRecord_frame :
    (s.takeRecord).host = s.host ∧ (s.takeRecord).spill = s.spill ∧ (s.takeRecord).matching = s.matching ∧
    (s.takeRecord).peers = s.peers ∧ (s.takeRecord).contexts = s.contexts ∧ (s.takeRecord).mover = s.mover ∧
    (s.takeRecord).sending = s.sending ∧ (s.takeRecord).laneA = s.laneA ∧ (s.takeRecord).laneB = s.laneB ∧
    (s.takeRecord).counters = s.counters ∧ (s.takeRecord).claims = s.claims ∧
    (s.takeRecord).pending = s.pending := by
  simp [State.takeRecord]

@[simp] theorem takePlace_frame (l : Lane) (f : Frame) :
    ((s.takePlace l f).1).host = s.host ∧ ((s.takePlace l f).1).ring = s.ring ∧
    ((s.takePlace l f).1).spill = s.spill ∧ ((s.takePlace l f).1).matching = s.matching ∧
    ((s.takePlace l f).1).peers = s.peers ∧ ((s.takePlace l f).1).contexts = s.contexts ∧
    ((s.takePlace l f).1).mover = s.mover ∧ ((s.takePlace l f).1).sending = s.sending ∧
    ((s.takePlace l f).1).laneA = s.laneA ∧ ((s.takePlace l f).1).laneB = s.laneB ∧
    ((s.takePlace l f).1).claims = s.claims ∧ ((s.takePlace l f).1).outbox = s.outbox ∧
    ((s.takePlace l f).1).pending = s.pending := by
  unfold State.takePlace; (repeat' split) <;> simp_all

@[simp] theorem placeFrame_frame (l : Lane) (f : Frame) :
    (s.placeFrame l f).host = s.host ∧ (s.placeFrame l f).ring = s.ring ∧ (s.placeFrame l f).spill = s.spill ∧
    (s.placeFrame l f).matching = s.matching ∧ (s.placeFrame l f).peers = s.peers ∧
    (s.placeFrame l f).contexts = s.contexts ∧ (s.placeFrame l f).mover = s.mover ∧
    (s.placeFrame l f).sending = s.sending ∧ (s.placeFrame l f).counters = s.counters ∧
    (s.placeFrame l f).claims = s.claims ∧ (s.placeFrame l f).outbox = s.outbox ∧
    (s.placeFrame l f).pending = s.pending := by
  simp [State.placeFrame]

@[simp] theorem freeIngress_frame (l : Lane) :
    (s.freeIngress l).host = s.host ∧ (s.freeIngress l).ring = s.ring ∧ (s.freeIngress l).spill = s.spill ∧
    (s.freeIngress l).matching = s.matching ∧ (s.freeIngress l).peers = s.peers ∧
    (s.freeIngress l).contexts = s.contexts ∧ (s.freeIngress l).mover = s.mover ∧
    (s.freeIngress l).counters = s.counters ∧ (s.freeIngress l).pending = s.pending := by
  simp [State.freeIngress]

@[simp] theorem enterFailed_frame (k : FailureCause) :
    (s.enterFailed k).ring = s.ring ∧ (s.enterFailed k).spill = s.spill ∧
    (s.enterFailed k).matching = s.matching ∧ (s.enterFailed k).peers = s.peers ∧
    (s.enterFailed k).contexts = s.contexts ∧ (s.enterFailed k).mover = s.mover ∧
    (s.enterFailed k).sending = s.sending ∧ (s.enterFailed k).counters = s.counters ∧
    (s.enterFailed k).pending = s.pending := by
  unfold State.enterFailed; dsimp only [thenGives]; (repeat' split) <;> simp_all

@[simp] theorem freeContexts_frame (cs : List (Fin 64)) :
    (s.freeContexts cs).host = s.host ∧ (s.freeContexts cs).ring = s.ring ∧
    (s.freeContexts cs).spill = s.spill ∧ (s.freeContexts cs).matching = s.matching ∧
    (s.freeContexts cs).peers = s.peers ∧ (s.freeContexts cs).mover = s.mover ∧
    (s.freeContexts cs).sending = s.sending ∧ (s.freeContexts cs).laneA = s.laneA ∧
    (s.freeContexts cs).laneB = s.laneB ∧ (s.freeContexts cs).counters = s.counters ∧
    (s.freeContexts cs).outbox = s.outbox ∧ (s.freeContexts cs).pending = s.pending := by
  unfold State.freeContexts; dsimp only; split <;> simp [foldl_keeps]

@[simp] theorem takeDomainClose_frame (r : Request) :
    ((s.takeDomainClose r).1).host = s.host ∧ ((s.takeDomainClose r).1).ring = s.ring ∧
    ((s.takeDomainClose r).1).spill = s.spill ∧ ((s.takeDomainClose r).1).mover = s.mover ∧
    ((s.takeDomainClose r).1).sending = s.sending ∧ ((s.takeDomainClose r).1).laneA = s.laneA ∧
    ((s.takeDomainClose r).1).laneB = s.laneB ∧ ((s.takeDomainClose r).1).counters = s.counters ∧
    ((s.takeDomainClose r).1).outbox = s.outbox ∧ ((s.takeDomainClose r).1).pending = s.pending := by
  unfold State.takeDomainClose; dsimp only; (repeat' split) <;> simp [collect_keeps]

@[simp] theorem restartMatch_frame (p : Node) :
    ((s.restartMatch p).1).host = s.host ∧ ((s.restartMatch p).1).ring = s.ring ∧
    ((s.restartMatch p).1).spill = s.spill ∧ ((s.restartMatch p).1).mover = s.mover ∧
    ((s.restartMatch p).1).sending = s.sending ∧ ((s.restartMatch p).1).laneA = s.laneA ∧
    ((s.restartMatch p).1).laneB = s.laneB ∧ ((s.restartMatch p).1).counters = s.counters ∧
    ((s.restartMatch p).1).outbox = s.outbox ∧ ((s.restartMatch p).1).pending = s.pending := by
  unfold State.restartMatch; dsimp only; (repeat' split) <;> simp [collect_keeps, apply_ite]

@[simp] theorem restartSend_frame (p : Node) :
    ((s.restartSend p).1).host = s.host ∧ ((s.restartSend p).1).ring = s.ring ∧
    ((s.restartSend p).1).spill = s.spill ∧ ((s.restartSend p).1).matching = s.matching ∧
    ((s.restartSend p).1).peers = s.peers ∧ ((s.restartSend p).1).contexts = s.contexts ∧
    ((s.restartSend p).1).mover = s.mover ∧ ((s.restartSend p).1).laneA = s.laneA ∧
    ((s.restartSend p).1).laneB = s.laneB ∧ ((s.restartSend p).1).counters = s.counters ∧
    ((s.restartSend p).1).outbox = s.outbox ∧ ((s.restartSend p).1).pending = s.pending := by
  unfold State.restartSend; dsimp only; (repeat' split) <;> simp [collect_keeps]

@[simp] theorem askContext_frame (l : Lane) (f : Frame) (t : Target) (w e : Nat) :
    ((s.askContext l f t w e).1).spill = s.spill ∧ ((s.askContext l f t w e).1).peers = s.peers ∧
    ((s.askContext l f t w e).1).mover = s.mover ∧ ((s.askContext l f t w e).1).sending = s.sending ∧
    ((s.askContext l f t w e).1).laneA = s.laneA ∧ ((s.askContext l f t w e).1).laneB = s.laneB ∧
    ((s.askContext l f t w e).1).pending = s.pending := by
  unfold State.askContext; (repeat' split) <;> simp_all

@[simp] theorem openMatched_frame (l : Lane) (f : Frame) (id : Nat) (r : Receive) :
    ((s.openMatched l f id r).1).spill = s.spill ∧ ((s.openMatched l f id r).1).peers = s.peers ∧
    ((s.openMatched l f id r).1).sending = s.sending ∧ ((s.openMatched l f id r).1).laneA = s.laneA ∧
    ((s.openMatched l f id r).1).laneB = s.laneB ∧ ((s.openMatched l f id r).1).pending = s.pending := by
  unfold State.openMatched; dsimp only [thenGives]; (repeat' split) <;> simp_all

@[simp] theorem store_frame (d : Fin 64) (m : Message) (a : Bool) :
    (s.store d m a).host = s.host ∧ (s.store d m a).ring = s.ring ∧ (s.store d m a).spill = s.spill ∧
    (s.store d m a).contexts = s.contexts ∧ (s.store d m a).mover = s.mover ∧
    (s.store d m a).sending = s.sending ∧ (s.store d m a).laneA = s.laneA ∧ (s.store d m a).laneB = s.laneB ∧
    (s.store d m a).counters = s.counters ∧ (s.store d m a).claims = s.claims ∧
    (s.store d m a).outbox = s.outbox ∧ (s.store d m a).pending = s.pending := by
  unfold State.store; (repeat' split) <;> simp [State.holdEntry]

@[simp] theorem giveBack_frame :
    s.giveBack.host = s.host ∧ s.giveBack.ring = s.ring ∧ s.giveBack.spill = s.spill ∧
    s.giveBack.peers = s.peers ∧ s.giveBack.contexts = s.contexts ∧ s.giveBack.mover = s.mover ∧
    s.giveBack.sending = s.sending ∧ s.giveBack.laneA = s.laneA ∧ s.giveBack.laneB = s.laneB ∧
    s.giveBack.counters = s.counters ∧ s.giveBack.claims = s.claims ∧ s.giveBack.outbox = s.outbox ∧
    s.giveBack.pending = s.pending := by
  simp [State.giveBack]

@[simp] theorem openSpilled_frame (l : Lane) (f : Frame) (a : Bool) (e : SpillEntry) :
    ((s.openSpilled l f a e).1).mover = s.mover ∧ ((s.openSpilled l f a e).1).sending = s.sending ∧
    ((s.openSpilled l f a e).1).laneA = s.laneA ∧ ((s.openSpilled l f a e).1).laneB = s.laneB ∧
    ((s.openSpilled l f a e).1).pending = s.pending := by
  unfold State.openSpilled; dsimp only [thenGives]; (repeat' split) <;> simp_all

@[simp] theorem startFetch_frame :
    (s.startFetch).host = s.host ∧ (s.startFetch).ring = s.ring ∧ (s.startFetch).matching = s.matching ∧
    (s.startFetch).peers = s.peers ∧ (s.startFetch).contexts = s.contexts ∧ (s.startFetch).mover = s.mover ∧
    (s.startFetch).sending = s.sending ∧ (s.startFetch).laneA = s.laneA ∧ (s.startFetch).laneB = s.laneB ∧
    (s.startFetch).counters = s.counters ∧ (s.startFetch).pending = s.pending := by
  unfold State.startFetch; dsimp only [thenGives]; (repeat' split) <;> simp_all

@[simp] theorem refuseSpill_frame (f : Frame) :
    ((s.refuseSpill f).1).spill = s.spill ∧ ((s.refuseSpill f).1).peers = s.peers ∧
    ((s.refuseSpill f).1).contexts = s.contexts ∧ ((s.refuseSpill f).1).mover = s.mover ∧
    ((s.refuseSpill f).1).sending = s.sending ∧ ((s.refuseSpill f).1).laneA = s.laneA ∧
    ((s.refuseSpill f).1).laneB = s.laneB ∧ ((s.refuseSpill f).1).claims = s.claims ∧
    ((s.refuseSpill f).1).pending = s.pending := by
  unfold State.refuseSpill; dsimp only [thenGives]; (repeat' split) <;> simp_all

@[simp] theorem claimSpill_frame (l : Lane) (f : Frame) (a : Bool) :
    ((s.claimSpill l f a).1).mover = s.mover ∧ ((s.claimSpill l f a).1).sending = s.sending ∧
    ((s.claimSpill l f a).1).laneA = s.laneA ∧ ((s.claimSpill l f a).1).laneB = s.laneB ∧
    ((s.claimSpill l f a).1).pending = s.pending := by
  unfold State.claimSpill; dsimp only [thenGives]; (repeat' split) <;> simp_all

@[simp] theorem resumeSpill_frame (l : Lane) (f : Frame) (a : Bool) :
    ((s.resumeSpill l f a).1).mover = s.mover ∧ ((s.resumeSpill l f a).1).sending = s.sending ∧
    ((s.resumeSpill l f a).1).laneA = s.laneA ∧ ((s.resumeSpill l f a).1).laneB = s.laneB ∧
    ((s.resumeSpill l f a).1).pending = s.pending := by
  unfold State.resumeSpill; dsimp only [thenGives]; (repeat' split) <;> simp_all

@[simp] theorem openUnmatched_frame (l : Lane) (f : Frame) (a : Bool) :
    ((s.openUnmatched l f a).1).mover = s.mover ∧ ((s.openUnmatched l f a).1).sending = s.sending ∧
    ((s.openUnmatched l f a).1).laneA = s.laneA ∧ ((s.openUnmatched l f a).1).laneB = s.laneB ∧
    ((s.openUnmatched l f a).1).pending = s.pending := by
  unfold State.openUnmatched; dsimp only [thenGives]; (repeat' split) <;> simp_all

@[simp] theorem takeOpening_frame (l : Lane) (f : Frame) (a : Bool) :
    ((s.takeOpening l f a).1).sending = s.sending ∧ ((s.takeOpening l f a).1).laneA = s.laneA ∧
    ((s.takeOpening l f a).1).laneB = s.laneB ∧ ((s.takeOpening l f a).1).pending = s.pending := by
  unfold State.takeOpening; dsimp only [thenGives]; (repeat' split) <;> simp_all

@[simp] theorem runOpening_frame (l : Lane) (f : Frame) (a b : Bool) :
    ((s.runOpening l f a b).1).sending = s.sending ∧ ((s.runOpening l f a b).1).laneA = s.laneA ∧
    ((s.runOpening l f a b).1).laneB = s.laneB ∧ ((s.runOpening l f a b).1).pending = s.pending := by
  unfold State.runOpening; dsimp only [thenGives]; (repeat' split) <;> simp_all

@[simp] theorem restartPeer_frame (n : Node) (a b : BitVec 8) :
    ((s.restartPeer n a b).1).spill = s.spill ∧ ((s.restartPeer n a b).1).matching = s.matching ∧
    ((s.restartPeer n a b).1).contexts = s.contexts ∧ ((s.restartPeer n a b).1).mover = s.mover ∧
    ((s.restartPeer n a b).1).sending = s.sending ∧ ((s.restartPeer n a b).1).laneA = s.laneA ∧
    ((s.restartPeer n a b).1).laneB = s.laneB ∧ ((s.restartPeer n a b).1).pending = s.pending := by
  unfold State.restartPeer; dsimp only [thenGives]; (repeat' split) <;> simp_all

@[simp] theorem takeEpoch_frame (l : Lane) (f : Frame) :
    ((s.takeEpoch l f).1).spill = s.spill ∧ ((s.takeEpoch l f).1).matching = s.matching ∧
    ((s.takeEpoch l f).1).contexts = s.contexts ∧ ((s.takeEpoch l f).1).mover = s.mover ∧
    ((s.takeEpoch l f).1).sending = s.sending ∧ ((s.takeEpoch l f).1).laneA = s.laneA ∧
    ((s.takeEpoch l f).1).laneB = s.laneB ∧ ((s.takeEpoch l f).1).pending = s.pending := by
  unfold State.takeEpoch; dsimp only [thenGives]; (repeat' split) <;> simp_all

@[simp] theorem releasePosition_frame (n : Node) :
    (s.releasePosition n).host = s.host ∧ (s.releasePosition n).ring = s.ring ∧
    (s.releasePosition n).spill = s.spill ∧ (s.releasePosition n).sending = s.sending ∧
    (s.releasePosition n).laneA = s.laneA ∧ (s.releasePosition n).laneB = s.laneB ∧
    (s.releasePosition n).counters = s.counters ∧ (s.releasePosition n).outbox = s.outbox ∧
    (s.releasePosition n).pending = s.pending := by
  unfold State.releasePosition; dsimp only [thenGives]; (repeat' split) <;> simp_all

@[simp] theorem passPosition_frame (n : Node) (o : Bool) :
    (s.passPosition n o).host = s.host ∧ (s.passPosition n o).ring = s.ring ∧
    (s.passPosition n o).spill = s.spill ∧ (s.passPosition n o).sending = s.sending ∧
    (s.passPosition n o).laneA = s.laneA ∧ (s.passPosition n o).laneB = s.laneB ∧
    (s.passPosition n o).counters = s.counters ∧ (s.passPosition n o).outbox = s.outbox ∧
    (s.passPosition n o).pending = s.pending := by
  unfold State.passPosition; dsimp only [thenGives]; (repeat' split) <;> simp_all

@[simp] theorem takeChain_frame (n : Node) (o : Bool) :
    ((s.takeChain n o).1).host = s.host ∧ ((s.takeChain n o).1).ring = s.ring ∧
    ((s.takeChain n o).1).spill = s.spill ∧ ((s.takeChain n o).1).sending = s.sending ∧
    ((s.takeChain n o).1).laneA = s.laneA ∧ ((s.takeChain n o).1).laneB = s.laneB ∧
    ((s.takeChain n o).1).counters = s.counters ∧ ((s.takeChain n o).1).outbox = s.outbox ∧
    ((s.takeChain n o).1).pending = s.pending := by
  unfold State.takeChain; dsimp only [thenGives]; (repeat' split) <;> simp_all

@[simp] theorem adopt_frame (f : Frame) :
    (s.adopt f).host = s.host ∧ (s.adopt f).ring = s.ring ∧ (s.adopt f).spill = s.spill ∧
    (s.adopt f).matching = s.matching ∧ (s.adopt f).contexts = s.contexts ∧ (s.adopt f).mover = s.mover ∧
    (s.adopt f).sending = s.sending ∧ (s.adopt f).laneA = s.laneA ∧ (s.adopt f).laneB = s.laneB ∧
    (s.adopt f).counters = s.counters ∧ (s.adopt f).claims = s.claims ∧ (s.adopt f).outbox = s.outbox ∧
    (s.adopt f).pending = s.pending := by
  unfold State.adopt; dsimp only [thenGives]; (repeat' split) <;> simp_all

@[simp] theorem takeWalk_frame (l : Lane) (f : Frame) (o : Bool) (q : Seq) (k : Nat) :
    ((s.takeWalk l f o q k).1).host = s.host ∧ ((s.takeWalk l f o q k).1).ring = s.ring ∧
    ((s.takeWalk l f o q k).1).spill = s.spill ∧ ((s.takeWalk l f o q k).1).sending = s.sending ∧
    ((s.takeWalk l f o q k).1).laneA = s.laneA ∧ ((s.takeWalk l f o q k).1).laneB = s.laneB ∧
    ((s.takeWalk l f o q k).1).outbox = s.outbox ∧ ((s.takeWalk l f o q k).1).pending = s.pending := by
  unfold State.takeWalk; dsimp only [thenGives]; (repeat' split) <;> simp_all

@[simp] theorem settleGap_frame (n : Node) :
    (s.settleGap n).host = s.host ∧ (s.settleGap n).ring = s.ring ∧ (s.settleGap n).spill = s.spill ∧
    (s.settleGap n).matching = s.matching ∧ (s.settleGap n).contexts = s.contexts ∧
    (s.settleGap n).mover = s.mover ∧ (s.settleGap n).sending = s.sending ∧ (s.settleGap n).laneA = s.laneA ∧
    (s.settleGap n).laneB = s.laneB ∧ (s.settleGap n).counters = s.counters ∧
    (s.settleGap n).claims = s.claims ∧ (s.settleGap n).outbox = s.outbox ∧
    (s.settleGap n).pending = s.pending := by
  unfold State.settleGap; dsimp only [thenGives]; (repeat' split) <;> simp_all

@[simp] theorem endRecord_frame (n : Node) (a : Bool) :
    (s.endRecord n a).host = s.host ∧ (s.endRecord n a).ring = s.ring ∧ (s.endRecord n a).spill = s.spill ∧
    (s.endRecord n a).matching = s.matching ∧ (s.endRecord n a).contexts = s.contexts ∧
    (s.endRecord n a).mover = s.mover ∧ (s.endRecord n a).sending = s.sending ∧
    (s.endRecord n a).laneA = s.laneA ∧ (s.endRecord n a).laneB = s.laneB ∧
    (s.endRecord n a).counters = s.counters ∧ (s.endRecord n a).outbox = s.outbox ∧
    (s.endRecord n a).pending = s.pending := by
  unfold State.endRecord; (repeat' split) <;> simp_all

@[simp] theorem dropStale_frame (l : Lane) (f : Frame) (a : Bool) :
    ((s.dropStale l f a).1).host = s.host ∧ ((s.dropStale l f a).1).ring = s.ring ∧
    ((s.dropStale l f a).1).spill = s.spill ∧ ((s.dropStale l f a).1).matching = s.matching ∧
    ((s.dropStale l f a).1).peers = s.peers ∧ ((s.dropStale l f a).1).contexts = s.contexts ∧
    ((s.dropStale l f a).1).mover = s.mover ∧ ((s.dropStale l f a).1).sending = s.sending ∧
    ((s.dropStale l f a).1).laneA = s.laneA ∧ ((s.dropStale l f a).1).laneB = s.laneB ∧
    ((s.dropStale l f a).1).claims = s.claims ∧ ((s.dropStale l f a).1).outbox = s.outbox ∧
    ((s.dropStale l f a).1).pending = s.pending := by
  unfold State.dropStale; dsimp only [thenGives]; (repeat' split) <;> simp_all

@[simp] theorem dropBeyond_frame (l : Lane) (f : Frame) (a : Bool) :
    ((s.dropBeyond l f a).1).spill = s.spill ∧ ((s.dropBeyond l f a).1).matching = s.matching ∧
    ((s.dropBeyond l f a).1).peers = s.peers ∧ ((s.dropBeyond l f a).1).contexts = s.contexts ∧
    ((s.dropBeyond l f a).1).mover = s.mover ∧ ((s.dropBeyond l f a).1).sending = s.sending ∧
    ((s.dropBeyond l f a).1).laneA = s.laneA ∧ ((s.dropBeyond l f a).1).laneB = s.laneB ∧
    ((s.dropBeyond l f a).1).claims = s.claims ∧ ((s.dropBeyond l f a).1).pending = s.pending := by
  unfold State.dropBeyond; dsimp only [thenGives]; (repeat' split) <;> simp_all

@[simp] theorem classify_frame (l : Lane) (f : Frame) (a : Bool) :
    ((s.classify l f a).1).spill = s.spill ∧ ((s.classify l f a).1).matching = s.matching ∧
    ((s.classify l f a).1).peers = s.peers ∧ ((s.classify l f a).1).contexts = s.contexts ∧
    ((s.classify l f a).1).mover = s.mover ∧ ((s.classify l f a).1).sending = s.sending ∧
    ((s.classify l f a).1).laneA = s.laneA ∧ ((s.classify l f a).1).laneB = s.laneB ∧
    ((s.classify l f a).1).claims = s.claims ∧ ((s.classify l f a).1).pending = s.pending := by
  unfold State.classify; dsimp only [thenGives]; (repeat' split) <;> simp_all

@[simp] theorem takeLookup_frame (l : Lane) (f : Frame) (a : Bool) :
    ((s.takeLookup l f a).1).spill = s.spill ∧ ((s.takeLookup l f a).1).matching = s.matching ∧
    ((s.takeLookup l f a).1).peers = s.peers ∧ ((s.takeLookup l f a).1).contexts = s.contexts ∧
    ((s.takeLookup l f a).1).mover = s.mover ∧ ((s.takeLookup l f a).1).sending = s.sending ∧
    ((s.takeLookup l f a).1).laneA = s.laneA ∧ ((s.takeLookup l f a).1).laneB = s.laneB ∧
    ((s.takeLookup l f a).1).pending = s.pending := by
  unfold State.takeLookup; (repeat' split) <;> simp_all

@[simp] theorem countOpened_frame (f : Frame) (a : Bool) :
    (s.countOpened f a).host = s.host ∧ (s.countOpened f a).ring = s.ring ∧
    (s.countOpened f a).spill = s.spill ∧ (s.countOpened f a).matching = s.matching ∧
    (s.countOpened f a).contexts = s.contexts ∧ (s.countOpened f a).mover = s.mover ∧
    (s.countOpened f a).sending = s.sending ∧ (s.countOpened f a).laneA = s.laneA ∧
    (s.countOpened f a).laneB = s.laneB ∧ (s.countOpened f a).counters = s.counters ∧
    (s.countOpened f a).claims = s.claims ∧ (s.countOpened f a).outbox = s.outbox ∧
    (s.countOpened f a).pending = s.pending := by
  unfold State.countOpened; dsimp only; split <;> simp

@[simp] theorem takeAnswered_frame (l : Lane) (f : Frame) (a b : Bool) (x : OpenAnswer) :
    ((s.takeAnswered l f a b x).1).host = s.host ∧ ((s.takeAnswered l f a b x).1).ring = s.ring ∧
    ((s.takeAnswered l f a b x).1).spill = s.spill ∧ ((s.takeAnswered l f a b x).1).matching = s.matching ∧
    ((s.takeAnswered l f a b x).1).contexts = s.contexts ∧ ((s.takeAnswered l f a b x).1).mover = s.mover ∧
    ((s.takeAnswered l f a b x).1).sending = s.sending ∧ ((s.takeAnswered l f a b x).1).laneA = s.laneA ∧
    ((s.takeAnswered l f a b x).1).laneB = s.laneB ∧ ((s.takeAnswered l f a b x).1).claims = s.claims ∧
    ((s.takeAnswered l f a b x).1).outbox = s.outbox ∧ ((s.takeAnswered l f a b x).1).pending = s.pending := by
  unfold State.takeAnswered; dsimp only; split <;> simp

@[simp] theorem takeGapExpiry_frame (n : Node) (t : Tick) :
    ((s.takeGapExpiry n t).1).host = s.host ∧ ((s.takeGapExpiry n t).1).ring = s.ring ∧
    ((s.takeGapExpiry n t).1).spill = s.spill ∧ ((s.takeGapExpiry n t).1).matching = s.matching ∧
    ((s.takeGapExpiry n t).1).contexts = s.contexts ∧ ((s.takeGapExpiry n t).1).mover = s.mover ∧
    ((s.takeGapExpiry n t).1).sending = s.sending ∧ ((s.takeGapExpiry n t).1).laneA = s.laneA ∧
    ((s.takeGapExpiry n t).1).laneB = s.laneB ∧ ((s.takeGapExpiry n t).1).outbox = s.outbox ∧
    ((s.takeGapExpiry n t).1).pending = s.pending := by
  unfold State.takeGapExpiry; dsimp only [thenGives]; (repeat' split) <;> simp_all

@[simp] theorem takeDispatch_frame (l : Lane) (f : Frame) :
    ((s.takeDispatch l f).1).host = s.host ∧ ((s.takeDispatch l f).1).ring = s.ring ∧
    ((s.takeDispatch l f).1).spill = s.spill ∧ ((s.takeDispatch l f).1).matching = s.matching ∧
    ((s.takeDispatch l f).1).contexts = s.contexts ∧ ((s.takeDispatch l f).1).mover = s.mover ∧
    ((s.takeDispatch l f).1).sending = s.sending ∧ ((s.takeDispatch l f).1).laneA = s.laneA ∧
    ((s.takeDispatch l f).1).laneB = s.laneB ∧ ((s.takeDispatch l f).1).counters = s.counters ∧
    ((s.takeDispatch l f).1).outbox = s.outbox ∧ ((s.takeDispatch l f).1).pending = s.pending := by
  unfold State.takeDispatch; dsimp only [thenGives]; (repeat' split) <;> simp_all

@[simp] theorem takeRetract_frame (l : Lane) (f : Frame) :
    ((s.takeRetract l f).1).host = s.host ∧ ((s.takeRetract l f).1).ring = s.ring ∧
    ((s.takeRetract l f).1).spill = s.spill ∧ ((s.takeRetract l f).1).contexts = s.contexts ∧
    ((s.takeRetract l f).1).mover = s.mover ∧ ((s.takeRetract l f).1).sending = s.sending ∧
    ((s.takeRetract l f).1).laneA = s.laneA ∧ ((s.takeRetract l f).1).laneB = s.laneB ∧
    ((s.takeRetract l f).1).counters = s.counters ∧ ((s.takeRetract l f).1).claims = s.claims ∧
    ((s.takeRetract l f).1).outbox = s.outbox ∧ ((s.takeRetract l f).1).pending = s.pending := by
  unfold State.takeRetract; dsimp only [thenGives]; (repeat' split) <;> simp_all

@[simp] theorem takeAbortReceive_frame (f : Frame) :
    ((s.takeAbortReceive f).1).host = s.host ∧ ((s.takeAbortReceive f).1).ring = s.ring ∧
    ((s.takeAbortReceive f).1).spill = s.spill ∧ ((s.takeAbortReceive f).1).matching = s.matching ∧
    ((s.takeAbortReceive f).1).peers = s.peers ∧ ((s.takeAbortReceive f).1).contexts = s.contexts ∧
    ((s.takeAbortReceive f).1).mover = s.mover ∧ ((s.takeAbortReceive f).1).sending = s.sending ∧
    ((s.takeAbortReceive f).1).laneA = s.laneA ∧ ((s.takeAbortReceive f).1).laneB = s.laneB ∧
    ((s.takeAbortReceive f).1).claims = s.claims ∧ ((s.takeAbortReceive f).1).outbox = s.outbox ∧
    ((s.takeAbortReceive f).1).pending = s.pending := by
  unfold State.takeAbortReceive; (repeat' split) <;> simp_all

@[simp] theorem takeContextExpiry_frame (c : Fin 64) :
    ((s.takeContextExpiry c).1).host = s.host ∧ ((s.takeContextExpiry c).1).ring = s.ring ∧
    ((s.takeContextExpiry c).1).spill = s.spill ∧ ((s.takeContextExpiry c).1).matching = s.matching ∧
    ((s.takeContextExpiry c).1).peers = s.peers ∧ ((s.takeContextExpiry c).1).contexts = s.contexts ∧
    ((s.takeContextExpiry c).1).mover = s.mover ∧ ((s.takeContextExpiry c).1).sending = s.sending ∧
    ((s.takeContextExpiry c).1).laneA = s.laneA ∧ ((s.takeContextExpiry c).1).laneB = s.laneB ∧
    ((s.takeContextExpiry c).1).claims = s.claims ∧ ((s.takeContextExpiry c).1).outbox = s.outbox ∧
    ((s.takeContextExpiry c).1).pending = s.pending := by
  unfold State.takeContextExpiry; (repeat' split) <;> simp_all

@[simp] theorem takeChunkError_frame (t : Nat) :
    ((s.takeChunkError t).1).host = s.host ∧ ((s.takeChunkError t).1).ring = s.ring ∧
    ((s.takeChunkError t).1).spill = s.spill ∧ ((s.takeChunkError t).1).matching = s.matching ∧
    ((s.takeChunkError t).1).peers = s.peers ∧ ((s.takeChunkError t).1).contexts = s.contexts ∧
    ((s.takeChunkError t).1).sending = s.sending ∧ ((s.takeChunkError t).1).laneA = s.laneA ∧
    ((s.takeChunkError t).1).laneB = s.laneB ∧ ((s.takeChunkError t).1).counters = s.counters ∧
    ((s.takeChunkError t).1).claims = s.claims ∧ ((s.takeChunkError t).1).outbox = s.outbox ∧
    ((s.takeChunkError t).1).pending = s.pending := by
  unfold State.takeChunkError; dsimp only [thenGives]; (repeat' split) <;> simp_all

@[simp] theorem takeDeadline_frame (n : Nat) (t : Tick) :
    ((s.takeDeadline n t).1).host = s.host ∧ ((s.takeDeadline n t).1).ring = s.ring ∧
    ((s.takeDeadline n t).1).spill = s.spill ∧ ((s.takeDeadline n t).1).peers = s.peers ∧
    ((s.takeDeadline n t).1).contexts = s.contexts ∧ ((s.takeDeadline n t).1).mover = s.mover ∧
    ((s.takeDeadline n t).1).sending = s.sending ∧ ((s.takeDeadline n t).1).laneA = s.laneA ∧
    ((s.takeDeadline n t).1).laneB = s.laneB ∧ ((s.takeDeadline n t).1).counters = s.counters ∧
    ((s.takeDeadline n t).1).claims = s.claims ∧ ((s.takeDeadline n t).1).outbox = s.outbox ∧
    ((s.takeDeadline n t).1).pending = s.pending := by
  unfold State.takeDeadline; (repeat' split) <;> simp_all

@[simp] theorem expireResponse_frame (i : Fin 32) (g : BitVec 11) (t : Tick) :
    ((s.expireResponse i g t).1).host = s.host ∧ ((s.expireResponse i g t).1).ring = s.ring ∧
    ((s.expireResponse i g t).1).spill = s.spill ∧ ((s.expireResponse i g t).1).matching = s.matching ∧
    ((s.expireResponse i g t).1).peers = s.peers ∧ ((s.expireResponse i g t).1).contexts = s.contexts ∧
    ((s.expireResponse i g t).1).mover = s.mover ∧ ((s.expireResponse i g t).1).laneA = s.laneA ∧
    ((s.expireResponse i g t).1).laneB = s.laneB ∧ ((s.expireResponse i g t).1).outbox = s.outbox ∧
    ((s.expireResponse i g t).1).pending = s.pending := by
  unfold State.expireResponse; (repeat' split) <;> simp_all

end Sys2Proof.Machine
end

