-- ==== Sys2Proof/Laws/Claims.lean ====
section
/-! SUPPORT. How claims run: one act at a time while nothing waits, completions in order while the Completion Ring has
room, and what a command leaves when it settles. -/

namespace Sys2Proof.Machine

variable {s t u : State}

/-! ### Running acts -/

@[simp] theorem runActs_nil (n : Nat) : State.runActs n s [] = s := by
  cases n <;> simp [State.runActs, State.suspend]

/-- While no claim waits, nothing is overtaken. -/
@[simp] theorem overtakes_eq_false (h : s.claims.waiting = []) (a : Act) : s.overtakes a = false := by
  cases a <;> simp [State.overtakes, h]

/-- An act that can be done is done, and the acts it leads to come next. -/
theorem runActs_cons {n : Nat} {a : Act} {rest : List Act} (hw : s.claims.waiting = []) (hn : 0 < n)
    (hr : a.ready s = true) :
    State.runActs n s (a :: rest) = State.runActs (n - 1) (a.run s).1 ((a.run s).2 ++ rest) := by
  obtain ⟨n, rfl⟩ : ∃ k, n = k + 1 := ⟨n - 1, by omega⟩
  simp [State.runActs, hr, hw]

/-- An act that cannot be done leaves the claim waiting. -/
theorem runActs_wait {n : Nat} {a : Act} {rest : List Act} (hn : 0 < n) (hr : a.ready s = false) :
    State.runActs n s (a :: rest) = s.setClaims { s.claims with waiting := s.claims.waiting ++ [a :: rest] } := by
  obtain ⟨n, rfl⟩ : ∃ k, n = k + 1 := ⟨n - 1, by omega⟩
  simp [State.runActs, hr, State.suspend]

/-- A command in ONLINE, STOPPING or STOPPED settles. -/
theorem finish_active (h : s.active = true) : s.finish = s.settled := by simp [State.finish, h]

theorem make_active {acts : List Act} (h : (State.runActs actBound s acts).active = true) :
    s.make acts = (State.runActs actBound s acts).settled := finish_active h

/-- Whether the part is active depends on its state alone. -/
theorem active_congr (h : t.host.partState = s.host.partState) : t.active = s.active := by
  simp [State.active, h]

/-! ### Locks -/

@[simp] theorem hold_claims (l : Lock) : (s.hold l).claims = { s.claims with locks := l :: s.claims.locks } := rfl

@[simp] theorem unhold_claims (l : Lock) :
    (s.unhold l).claims = { s.claims with locks := s.claims.locks.erase l } := rfl

theorem unheld_iff (l : Lock) : s.unheld l = true ↔ l ∉ s.claims.locks := by simp [State.unheld]

theorem calm_unheld (h : s.claims.locks = []) (l : Lock) : s.unheld l = true := by simp [State.unheld, h]

/-! ### What has left the part -/

theorem transfers_refl (s : State) : s.transfers s [] := by simp [State.transfers, State.left]

theorem transfers_of_eq (h : t.outbox = s.outbox) : s.transfers t [] := by simp [State.transfers, State.left, h]

theorem transfers_trans {os os' : List Output} (h : s.transfers t os) (h' : t.transfers u os') :
    s.transfers u (os ++ os') := by
  obtain ⟨⟨a, ha⟩, hf⟩ := h
  obtain ⟨⟨b, hb⟩, hf'⟩ := h'
  unfold State.left at *
  refine ⟨⟨a ++ b, by rw [← hb, ← ha, List.append_assoc]⟩, ?_⟩
  rw [← ha, List.drop_left] at hf
  rw [← hb, List.drop_left] at hf'
  unfold State.left
  rw [← hb, ← ha, List.append_assoc, List.drop_left, List.filter_append, hf, hf']

/-- Only the outboxes count. -/
theorem transfers_congr {s' t' : State} {os : List Output} (hs : s'.outbox = s.outbox) (ht : t'.outbox = t.outbox) :
    s'.transfers t' os ↔ s.transfers t os := by simp [State.transfers, State.left, hs, ht]

theorem transfers_emit (o : Output) (h : o.isTransfer = true) : s.transfers (s.emit o) [o] := by
  simp [State.transfers, State.left, State.emit, h]

theorem transfers_hostWrite (a : BitVec 64) (b : Bytes) : s.transfers (s.hostWrite a b) [.write a b] :=
  transfers_emit _ rfl

theorem transfers_setInterrupts (c m : BitVec 4) (e : Bool) : s.transfers (s.setInterrupts c m e) [] := by
  unfold State.setInterrupts
  dsimp only
  split
  · simp [State.transfers, State.left, State.emit, Output.isTransfer]
  · exact transfers_of_eq rfl

theorem setInterrupts_host (c m : BitVec 4) (e : Bool) :
    (s.setInterrupts c m e).host = { s.host with intCause := c, intMask := m, msiEnable := e } := by
  unfold State.setInterrupts
  dsimp only
  split <;> simp

/-- Raising a cause changes the Host Port's causes alone (R193). -/
theorem raise_host (c : BitVec 4) : (s.raise c).host = { s.host with intCause := s.host.intCause ||| c } := by
  simp [State.raise, setInterrupts_host]

theorem transfers_raise (c : BitVec 4) : s.transfers (s.raise c) [] := transfers_setInterrupts ..

/-- A write of the interrupt registers sends a message exactly when R194 says so. -/
theorem interrupts_setInterrupts (c m : BitVec 4) (e : Bool) : s.interrupts (s.setInterrupts c m e) := by
  have gained : ∀ x y : BitVec 4,
      x &&& ~~~y ≠ 0 ↔ ∃ k, k < 4 ∧ x.getLsbD k = true ∧ y.getLsbD k = false := by decide +kernel
  unfold State.interrupts
  simp only [setInterrupts_host, ← gained]
  unfold State.setInterrupts
  dsimp only
  constructor
  · rintro ⟨h1, h2⟩
    rw [if_pos]
    · simp [State.left, State.emit]
    · rcases h2 with h2 | h2 <;> simp_all
  · intro h
    rw [if_neg]
    · simp [State.left]
    · simp_all

theorem interrupts_raise (c : BitVec 4) : s.interrupts (s.raise c) := interrupts_setInterrupts ..

/-! ### Events -/

/-- An event given while the Ring Unit takes events is written or counted lost (R175, R176). -/
theorem reports_giveEvent (e : Event) (ha : s.active = true) : s.reports (s.giveEvent e) e := by
  unfold State.reports State.giveEvent
  rw [if_pos ha]
  split
  case isTrue h =>
    refine ⟨by simp [State.writeEvent], by simp, by simp [State.writeEvent, raise_host], ?_⟩
    let r := { s.ring with lost := 0, eventTail := s.ring.eventTail + 1 }
    let v := (s.hostWrite (slotAddress s.setup.eventBase s.ring.eventTail s.setup.eventSize 32)
      (e.bytes (lapMarker s.ring.eventTail s.setup.eventSize) s.ring.lost s.host.tick)).setRing r
    have record : s.transfers v _ := (transfers_congr rfl rfl).1 (transfers_hostWrite _ _)
    have shadow : v.transfers v.shadowWrite [.write s.setup.shadow r.shadowBytes] := transfers_hostWrite _ _
    exact transfers_trans (transfers_trans record shadow) (transfers_raise causeEvent)
  case isFalse h => exact ⟨rfl, rfl, rfl, rfl⟩

/-- An event changes the causes of the Host Port alone. -/
theorem giveEvent_host (e : Event) : ∃ c, (s.giveEvent e).host = { s.host with intCause := c } := by
  unfold State.giveEvent State.writeEvent
  (repeat' split)
  · exact ⟨_, raise_host _⟩
  · exact ⟨_, rfl⟩
  · exact ⟨_, rfl⟩

theorem giveEvent_active (e : Event) : (s.giveEvent e).active = s.active := by
  obtain ⟨c, h⟩ := giveEvent_host (s := s) e
  simp [State.active, h]

/-! ### Completions -/

/-- Completions are written one after another. -/
def State.writeAll (s : State) (cs : List Completion) : State := cs.foldl State.writeCompletion s

@[simp] theorem writeAll_nil : s.writeAll [] = s := rfl

@[simp] theorem writeAll_cons (c : Completion) (cs : List Completion) :
    s.writeAll (c :: cs) = (s.writeCompletion c).writeAll cs := rfl

theorem writeAll_frame (cs : List Completion) :
    (s.writeAll cs).spill = s.spill ∧ (s.writeAll cs).matching = s.matching ∧ (s.writeAll cs).peers = s.peers ∧
      (s.writeAll cs).contexts = s.contexts ∧ (s.writeAll cs).mover = s.mover ∧
      (s.writeAll cs).sending = s.sending ∧ (s.writeAll cs).laneA = s.laneA ∧ (s.writeAll cs).laneB = s.laneB ∧
      (s.writeAll cs).counters = s.counters ∧ (s.writeAll cs).claims = s.claims ∧
      (s.writeAll cs).pending = s.pending := by
  induction cs generalizing s with
  | nil => simp
  | cons c cs ih => simpa using @ih (s.writeCompletion c)

/-- The completions that raise COMPLETION, as the statements say it (R105, R173). -/
theorem raises_eq (c : Completion) : c.raises = (c.notify || c.isSpillReleased) := by
  have : decide (c.kind = 16 ∧ c.status = .ok) = c.isSpillReleased := by
    simp [Completion.isSpillReleased, spillReleasedKind, ← beq_iff_eq, Bool.decide_and]
  simp only [Completion.raises, this]

/-- One completion is written: its record, the raised tail, the shadow write, and the cause it raises (R170, R173). -/
theorem posts_writeCompletion (c : Completion) : s.posts (s.writeCompletion c) [c] := by
  have key : ∀ v : State, v = (s.hostWrite
      (slotAddress s.setup.completionBase s.ring.completionTail s.setup.completionSize 32)
      (c.bytes (lapMarker s.ring.completionTail s.setup.completionSize))).setRing
        { s.ring with completionTail := s.ring.completionTail + 1 } →
      s.transfers v.shadowWrite (completionOutputs s.setup s.ring [c]) := by
    intro v hv
    subst hv
    exact transfers_trans ((transfers_congr rfl rfl).1 (transfers_hostWrite _ _)) (transfers_hostWrite _ _)
  unfold State.writeCompletion
  dsimp only
  split
  case isTrue h =>
    refine ⟨by simp, by simpa using transfers_trans (key _ rfl) (transfers_raise causeCompletion), ?_⟩
    simp [raise_host, completionCause, raises_eq, h]
  case isFalse h =>
    refine ⟨by simp, key _ rfl, ?_⟩
    simp [completionCause, raises_eq, h]

theorem completionOutputs_cons (c : Setup) (r : RingUnit) (x : Completion) (xs : List Completion) :
    completionOutputs c r (x :: xs)
      = completionOutputs c r [x] ++ completionOutputs c { r with completionTail := r.completionTail + 1 } xs := rfl

theorem completionCause_cons (x : Completion) (xs : List Completion) :
    completionCause (x :: xs) = completionCause [x] ||| completionCause xs := by
  cases hp : x.raises <;> cases hq : xs.any Completion.raises <;>
    simp only [completionCause, List.any_cons, List.any_nil, hp, hq] <;> rfl

/-- Completions given one after another (R167, R170, R173). -/
theorem posts_writeAll (cs : List Completion) : s.posts (s.writeAll cs) cs := by
  induction cs generalizing s with
  | nil => exact ⟨by simp, transfers_refl s, by simp [completionCause]⟩
  | cons c cs ih =>
    obtain ⟨r1, o1, h1⟩ := posts_writeCompletion (s := s) c
    obtain ⟨r2, o2, h2⟩ := @ih (s.writeCompletion c)
    refine ⟨?_, ?_, ?_⟩
    · rw [writeAll_cons, r2, r1]
      simp only [List.length_cons, List.length_nil, BitVec.ofNat_add, RingUnit.mk.injEq, true_and,
        and_true]
      bv_omega
    · rw [writeAll_cons, completionOutputs_cons]
      refine transfers_trans o1 ?_
      have hs : (s.writeCompletion c).setup = s.setup := by simp [State.setup, h1]
      rw [hs, r1] at o2
      exact o2
    · rw [writeAll_cons, h2, h1, completionCause_cons c cs]
      simp [BitVec.or_assoc]

/-- With room in the ring and an empty Completion Holding Queue, a completion is written at once (R169). -/
theorem takeCompletion_room {n : Nat} (h : s.roomFor (n + 1)) (c : Completion) :
    s.takeCompletion c = s.writeCompletion c := by
  obtain ⟨hq, hn, -⟩ := h
  have : s.completionRoom = true := by simp [State.completionRoom]; omega
  simp [State.takeCompletion, hq, this]

/-- A written completion takes one place. -/
theorem roomFor_writeCompletion {n : Nat} (h : s.roomFor (n + 1)) (c : Completion) :
    (s.writeCompletion c).roomFor n := by
  obtain ⟨hr, -, hh⟩ := posts_writeCompletion (s := s) c
  obtain ⟨hq, hn, hs⟩ := h
  have hset : (s.writeCompletion c).setup = s.setup := by simp [State.setup, hh]
  refine ⟨by simp [hr, hq], ?_, by rw [hset]; exact hs⟩
  rw [hset, hr]
  simp only [occupancy, List.length_cons, List.length_nil] at *
  bv_omega

/-- Room for `n` is room for fewer. -/
theorem State.roomFor_le {m n : Nat} (h : s.roomFor n) (hm : m ≤ n) : s.roomFor m := by
  obtain ⟨a, b, c⟩ := h; exact ⟨a, by omega, c⟩

/-- Completions of a claim are given one after another while the ring has room (R172). -/
theorem runActs_gives {cs : List Completion} {n : Nat} {rest : List Act} (hw : s.claims.waiting = [])
    (hn : cs.length ≤ n) (hr : s.roomFor cs.length) :
    State.runActs n s (gives cs ++ rest) = State.runActs (n - cs.length) (s.writeAll cs) rest := by
  induction cs generalizing s n with
  | nil => simp [gives]
  | cons c cs ih =>
    have hq : s.chqTakes = true := by simp [State.chqTakes, hr.1, chqSize]
    have e : gives (c :: cs) ++ rest = .give c :: (gives cs ++ rest) := rfl
    simp only [List.length_cons] at hn hr
    rw [e, runActs_cons hw (by omega) (by simpa [Act.ready] using hq)]
    simp only [Act.run, List.nil_append, takeCompletion_room hr]
    rw [ih (by simpa using hw) (by omega) (roomFor_writeCompletion hr c)]
    simp [Nat.sub_sub, Nat.add_comm]

end Sys2Proof.Machine
end

