-- ==== Sys2Proof/Laws/Requests.lean ====
section
/-! SUPPORT. How a request runs to its end: the record is taken, its owner does one claim and gives its completions,
and the take ends. -/

namespace Sys2Proof.Machine

variable {s t u w : State}

/-- What `posts` reads of its first state. -/
theorem posts_congr {s' : State} {cs : List Completion} (hr : s'.ring = s.ring) (hh : s'.host = s.host)
    (ho : s'.outbox = s.outbox) (h : s.posts t cs) : s'.posts t cs := by
  obtain ⟨a, b, c⟩ := h
  refine ⟨by rw [a, hr], ?_, by rw [c, hh]⟩
  have hs : s'.setup = s.setup := by simp [State.setup, hh]
  rw [hs, hr]
  exact (transfers_congr ho rfl).2 b

/-- A claim that holds one unit and gives its completions while the ring has room runs to its end. -/
theorem runActs_giving {n : Nat} {a : Act} {lock : Lock} {p : State × List Completion} {rest : List Act}
    (hw : s.claims.waiting = []) (hr : a.ready s = true) (ha : a.run s = giving [lock] p)
    (hp : p.1.claims.waiting = []) (room : p.1.roomFor p.2.length) (hn : p.2.length + 2 ≤ n) :
    State.runActs n s (a :: rest)
      = State.runActs (n - p.2.length - 2) (((p.1.hold lock).writeAll p.2).unhold lock) rest := by
  have hq : (p.1.hold lock).roomFor p.2.length := room
  have hwait : ((p.1.hold lock).writeAll p.2).claims.waiting = [] := by simp [writeAll_frame, hp]
  rw [runActs_cons hw (by omega) hr, ha]
  have e : (giving [lock] p).2 ++ rest = gives p.2 ++ (.unlock [lock] :: rest) := by
    simp [giving, holding, thenGives]
  have e1 : (giving [lock] p).1 = p.1.hold lock := rfl
  rw [e, e1, runActs_gives (by simpa using hp) (by omega) hq, runActs_cons hwait (by omega) rfl]
  simp only [Act.run, State.unlock, List.foldl_cons, List.foldl_nil, List.nil_append]
  congr 1
  omega

/-- A completion, an event or a record taken leaves the part active as it was. -/
theorem writeAll_active (cs : List Completion) : (s.writeAll cs).active = s.active := by
  have := (posts_writeAll (s := s) cs).2.2
  simp [State.active, this]

/-- What completions write does not depend on the request take. -/
theorem completionOutputs_take (c : Setup) (r : RingUnit) (take : Take) (cs : List Completion) :
    completionOutputs c { r with take := take } cs = completionOutputs c r cs := by
  induction cs generalizing r with
  | nil => rfl
  | cons x xs ih =>
    rw [completionOutputs_cons, completionOutputs_cons c r]
    congr 1
    exact ih { r with completionTail := r.completionTail + 1 }

/-- The end of a claim that gives completions, and of its take: what the state has become. -/
theorem request_end {lock : Lock} {cs : List Completion} (hw : w.claims.locks = []) :
    let u := (((w.hold lock).writeAll cs).unhold lock).setRing
      { (((w.hold lock).writeAll cs).unhold lock).ring with take := .noTake }
    (w.setRing { w.ring with take := .noTake }).posts u cs ∧ w.changesOnly u [.ring, .host, .outbox] := by
  have hp := posts_writeAll (s := w.hold lock) cs
  obtain ⟨a, b, c⟩ := hp
  refine ⟨⟨?_, ?_, ?_⟩, ?_, ?_⟩
  · simp only [setRing_ring]
    have : (((w.hold lock).writeAll cs).unhold lock).ring = ((w.hold lock).writeAll cs).ring := rfl
    rw [this, a]
    rfl
  · have hs : (w.setRing { w.ring with take := .noTake }).setup = w.setup := rfl
    rw [hs]
    simp only [setRing_ring, completionOutputs_take]
    exact (transfers_congr rfl rfl).1 b
  · simpa using c
  · intro k hk
    cases k <;> simp_all [State.agrees, writeAll_frame]
    rw [← hw]
  · simp [writeAll_frame]

/-- A sound request runs: its owner's claim gives its completions while the ring has room, and the take ends.
`p` is what the owner's claim makes of the state in which the record has been taken. -/
theorem request_runs {kind : RequestKind} {tag : Nat} {record : Bytes} {act : Request → Act} {lock : Lock}
    {p : State × List Completion} (h : s.serves kind tag record)
    (hr : (act (parseRequest record)).ready s.takeRecord = true)
    (ha : (act (parseRequest record)).run s.takeRecord = giving [lock] p)
    (hp : p.1.claims.waiting = []) (hl : p.1.claims.locks = [])
    (hactive : p.1.active = true) (room : p.1.roomFor p.2.length) (hn : p.2.length ≤ 4000) :
    ∃ u, s.request kind tag record act = u.settled
      ∧ (p.1.setRing { p.1.ring with take := .noTake }).posts u p.2 ∧ p.1.changesOnly u [.ring, .host, .outbox] := by
  obtain ⟨hc, hawait, hlen, hkind, hfault⟩ := h
  have hw : s.takeRecord.claims.waiting = [] := by simpa [State.takeRecord] using hc.1
  refine ⟨_, ?_, request_end (lock := lock) hl⟩
  simp only [State.request, hawait, hlen, hkind, beq_self_eq_true, Bool.and_self, if_true, requestActs]
  rw [hfault]
  have run : State.runActs actBound s.takeRecord [act (parseRequest record), .endTake]
      = (((p.1.hold lock).writeAll p.2).unhold lock).setRing
        { (((p.1.hold lock).writeAll p.2).unhold lock).ring with take := .noTake } := by
    rw [runActs_giving hw hr ha hp room (by simp only [actBound]; omega),
      runActs_cons (by simp [writeAll_frame, hp]) (by simp only [actBound]; omega) rfl]
    simp [Act.run]
  rw [make_active, run]
  rw [run]
  have : ((((p.1.hold lock).writeAll p.2).unhold lock).setRing
        { (((p.1.hold lock).writeAll p.2).unhold lock).ring with take := .noTake }).active
      = ((p.1.hold lock).writeAll p.2).active := rfl
  rw [this, writeAll_active]
  exact hactive

end Sys2Proof.Machine
end

