-- ==== Sys2Proof/Laws/Handling.lean ====
section
/-! SUPPORT. How a frame runs to its end: from the checks of R39 to the block its kind names, and what a claim on one
unit leaves. -/

namespace Sys2Proof.Machine

variable {s t u : State} {l : Lane} {f : Frame}

@[simp] theorem setLane_lane (l l' : Lane) (r : LaneRecord) :
    (s.setLane l r).lane l' = if l' = l then r else s.lane l' := by
  cases l <;> cases l' <;> rfl

/-- A lane depends on the two lane records alone. -/
theorem lane_congr (ha : t.laneA = s.laneA) (hb : t.laneB = s.laneB) (l : Lane) : t.lane l = s.lane l := by
  cases l <;> simp [State.lane, ha, hb]

theorem sendEntry_setSendEntry (i j : Fin 32) (e : SendEntry) :
    (s.setSendEntry i e).sendEntry j = if j = i then e else s.sendEntry j := by
  by_cases h : j = i
  · subst h; simp [State.sendEntry, State.setSendEntry]
  · simp [State.sendEntry, State.setSendEntry, h, tabGet_tabSet_other _ _ (Ne.symm h)]

/-- A unit held and released while no other is held: the state is as it was. -/
theorem unhold_hold (h : s.claims.locks = []) (k : Lock) : (s.hold k).unhold k = s := by
  obtain ⟨_, _, _, _, _, _, _, _, _, _, _, c, _, _⟩ := s
  obtain ⟨w, locks, _, _, _, _⟩ := c
  simp at h
  subst h
  simp [State.hold, State.unhold, State.setClaims]

/-- What the handling of a frame has changed when its block takes it. -/
theorem handling_frame (s : State) (l : Lane) :
    (s.handling l).host = s.host ∧ (s.handling l).ring = s.ring ∧ (s.handling l).spill = s.spill ∧
      (s.handling l).matching = s.matching ∧ (s.handling l).peers = s.peers ∧
      (s.handling l).contexts = s.contexts ∧ (s.handling l).mover = s.mover ∧
      (s.handling l).sending = s.sending ∧ (s.handling l).claims = s.claims ∧
      (s.handling l).outbox = s.outbox ∧ (s.handling l).pending = s.pending := by
  simp [State.handling, State.beginFrame]

theorem handling_active : (s.handling l).active = s.active := by simp [State.active, handling_frame]

/-- The lane's oldest frame passes the checks of R39 and goes on. -/
theorem takeFrame_accepts {row : Frame → Bool} {go : Frame → State → State} (h : s.accepts l f) (hr : row f = true) :
    s.takeFrame l row go = go f (s.handling l) := by
  obtain ⟨ha, hb, bytes, hh, hp, hw, hd⟩ := h
  have ho : s.oldest l = some bytes := by simp [State.oldest, ha, hb, hh]
  have hs : (s.beginFrame l).setup = s.setup := by simp [State.setup, State.beginFrame]
  simp [State.takeFrame, ho, hp, hr, State.checkFrame, hw, hs, hd, State.handling]

/-- A frame of a known epoch comes to dispatch with its source's record held (R50, R51). -/
theorem takeChecked_carries {row : Frame → Bool} (h : s.carries l f) (hr : row f = true) :
    s.takeChecked l row
      = (State.runActs 4095 ((s.handling l).hold (.record f.source)) [.dispatch l f]).finish := by
  obtain ⟨⟨hw, hl⟩, hacc, he⟩ := h
  have hp : (s.handling l).peer f.source = s.peer f.source := by simp [State.peer, handling_frame]
  rw [State.takeChecked, takeFrame_accepts hacc hr, State.toPeers, State.make, actBound,
    runActs_cons (by simp [handling_frame, hw]) (by omega)
      (by simpa [Act.ready] using calm_unheld (by simp [handling_frame, hl]) _)]
  simp [Act.run, State.takeEpoch, hp, he, compareEpoch]

/-- A frame that is no message frame leaves the record and comes to the block its kind names (R39, R54). -/
theorem takeChecked_elsewhere {row : Frame → Bool} (h : s.carries l f) (hr : row f = true)
    {acts : List Act}
    (hd : ∀ s' : State, s'.takeDispatch l f = (s'.unhold (.record f.source), acts)) :
    s.takeChecked l row = (State.runActs 4094 (s.handling l) acts).finish := by
  have hl : (s.handling l).claims.locks = [] := by simp [handling_frame, h.1.2]
  rw [takeChecked_carries h hr,
    runActs_cons (by simp [handling_frame, h.1.1]) (by omega) rfl]
  simp only [Act.run, hd, List.append_nil, unhold_hold hl]

/-- A claim on one unit that answers by completions alone and then frees the frame's buffer. -/
theorem holding_gives_runs {n : Nat} {a : Act} {lock : Lock} {p : State × List Completion} {rest : List Act}
    (hw : s.claims.waiting = []) (hr : a.ready s = true) (ha : a.run s = holding [lock] (thenGives p))
    (hp : p.1.claims.waiting = []) (room : p.1.roomFor p.2.length) (hn : p.2.length + 2 ≤ n) :
    State.runActs n s (a :: rest)
      = State.runActs (n - p.2.length - 2) (((p.1.hold lock).writeAll p.2).unhold lock) rest :=
  runActs_giving hw hr ha hp room hn

/-- What such a claim leaves: the completions are posted and the unit is free again. -/
theorem released_posts {lock : Lock} {cs : List Completion} (hl : s.claims.locks = []) :
    s.posts (((s.hold lock).writeAll cs).unhold lock) cs
      ∧ s.changesOnly (((s.hold lock).writeAll cs).unhold lock) [.ring, .host, .outbox] := by
  obtain ⟨a, b, c⟩ := posts_writeAll (s := s.hold lock) cs
  refine ⟨⟨a, (transfers_congr rfl rfl).1 b, c⟩, ?_, by simp [writeAll_frame]⟩
  intro k hk
  cases k <;> simp_all [State.agrees, writeAll_frame]
  rw [← hl]

/-- The last act of a frame's claim frees its buffer, and the command settles. -/
theorem freeIngress_runs {n : Nat} (hw : s.claims.waiting = []) (hn : 0 < n) (ha : s.active = true) :
    (State.runActs n s [.freeIngress l]).finish = s.handled l := by
  rw [runActs_cons hw hn rfl]
  simp only [Act.run, List.append_nil, runActs_nil, State.handled]
  exact finish_active (by rw [active_congr (s := s) (by simp)]; exact ha)

end Sys2Proof.Machine
end

