-- ==== Sys2Proof/Laws/Setup.lean ====
section
/-! SUPPORT. The Setup Block checks as a Bool (R180), and their agreement with what the statements say of them. -/

namespace Sys2Proof.Machine

theorem ringSizeGood_iff (n : Nat) : ringSizeGood n = true ↔ goodRingSize n := by
  have sizes : ∀ m ∈ [16, 32, 64, 128, 256, 512, 1024, 2048, 4096], 4 ≤ m.log2 ∧ m.log2 ≤ 12 ∧ m = 2 ^ m.log2 := by decide
  have powers : ∀ k : Fin 13, 4 ≤ k.val → ringSizeGood (2 ^ k.val) = true := by decide
  constructor
  · exact fun h => ⟨_, sizes n (List.contains_iff_mem.1 h)⟩
  · rintro ⟨k, low, high, rfl⟩
    exact powers ⟨k, by omega⟩ low

/-- The check with a code fails. -/
def Setup.failsCheck (c : Setup) : Nat → Bool
  | 2 => !([c.requestSize, c.spillRingSize, c.completionSize, c.eventSize].all ringSizeGood)
  | 3 => !([c.requestBase, c.spillBase, c.completionBase, c.eventBase].all (·.toNat % 4096 == 0))
    || c.shadow.toNat % 32 != 0
  | 4 => c.laneMask.toNat == 0 || 3 < c.laneMask.toNat
  | 5 => c.tickPeriod == 0 || 1000 < c.tickPeriod
  | 6 => c.spillSize < 256 || 16384 < c.spillSize || c.spillSize % 256 != 0
  | 7 => 16384 < c.eagerLimit
  | 8 => 1024 < c.unexpectedLimit || c.ageLimit == 0 || c.gapLimit == 0 || c.responseLimit == 0
  | _ => false

theorem fails_iff (c : Setup) (code : Nat) : c.fails code ↔ c.failsCheck code = true := by
  unfold Setup.fails Setup.failsCheck
  split
  · have g : ∀ n, goodRingSize n ↔ ringSizeGood n = true := fun n => (ringSizeGood_iff n).symm
    simp [g]
  all_goals (simp; try grind)

theorem failsCheck_code {c : Setup} {code : Nat} (h : c.failsCheck code = true) : 2 ≤ code ∧ code ≤ 8 := by
  unfold Setup.failsCheck at h
  split at h <;> simp_all

end Sys2Proof.Machine
end

