-- ==== Sys2Proof/Tests/Slice0.lean ====
section
/-! SUPPORT. Tests: ill-formed commands refused, worked values of the spec, and for every statement with hypotheses a
state and operands that meet them. The small states are those of Chapter 11: this part is node 5 with epoch 20, its peer
is node 12, and domain 2 is OPEN. -/

namespace Sys2Proof.Tests

set_option Elab.async false

open Sys2Proof Sys2Proof.Machine

/-! ### Helpers -/

/-- A request record of R163. -/
def record (kind : Nat) (flags segmentCount domain peer cookie tag mask target deadline : Nat := 0)
    (segments : List (Nat × Nat) := []) : Bytes :=
  let bytes := [BitVec.ofNat 8 kind, BitVec.ofNat 8 flags, BitVec.ofNat 8 segmentCount, BitVec.ofNat 8 domain]
    ++ leBytes 2 peer ++ [0, 0] ++ leBytes 8 cookie ++ leBytes 4 tag ++ leBytes 4 mask ++ leBytes 8 target
    ++ leBytes 4 deadline ++ [0, 0, 0, 0]
    ++ segments.flatMap fun g => leBytes 8 g.1 ++ leBytes 4 g.2 ++ [0, 0, 0, 0]
  bytes ++ List.replicate (128 - bytes.length) 0

/-- The Setup Block of Chapter 11, with some fields to vary (R179). -/
def setupBlock (ringSize shadow laneMask tickPeriod spillSize eagerLimit ageLimit : Nat) : Bytes :=
  [5, 20, BitVec.ofNat 8 laneMask, 0] ++ leBytes 4 tickPeriod
    ++ leBytes 8 0x10000 ++ leBytes 8 0x20000 ++ leBytes 8 0x30000 ++ leBytes 8 0x40000
    ++ leBytes 2 64 ++ leBytes 2 16 ++ leBytes 2 ringSize ++ leBytes 2 64 ++ leBytes 8 shadow
    ++ leBytes 2 spillSize ++ leBytes 2 eagerLimit ++ leBytes 2 256 ++ leBytes 2 0
    ++ leBytes 2 ageLimit ++ leBytes 2 50 ++ leBytes 2 100 ++ List.replicate 58 0

/-- The Setup Block of Chapter 11. -/
def goodBlock : Bytes := setupBlock 64 0x50000 3 10 1024 4096 40

/-- A lane that is UP and is sending a frame, with room for more. -/
def upLane : LaneRecord :=
  { LaneRecord.reset with
    state := .up, creditLimit := 10, credits := 5, trainSent := true
    transmitter := some { source := .train, frame := { kind := .train } } }

/-- The part of Chapter 11 at tick 1000: ONLINE, both lanes UP, domain 2 OPEN, node 12 known with next_seq 30. -/
def online : State :=
  let s : State := { State.reset with
    host := { HostPort.reset with partState := .online, setup := some (parseSetup goodBlock), tick := 1000 }
    laneA := upLane, laneB := upLane }
  (s.setDomain 2 { state := .opened, close := none }).setPeer 12
    { PeerRecord.reset with known := true, epoch := some 9, nextSeq := 30 }

/-- The part in another part state. -/
def inState (p : PartState) : State := online.setHost { online.host with partState := p }

/-- Request Ring read 7 is in flight. -/
def asking (s : State) : State := s.setRing { s.ring with take := .reading 7 }

/-- A receive of one segment. -/
def receive : Receive :=
  { cookie := 0xA1, selector := 12, tag := 0x10, mask := 0, segments := [{ address := 0x100000, length := 1024 }]
    total := 1024, notify := true, order := 0 }

/-- A RENDEZVOUS message of node 12. -/
def announced : Message :=
  { source := 12, epoch := 9, seq := 30, tag := 0x10, length := 600, mode := .rendezvous, handle := 99, spill := none
    context := none, lane := .a }

/-- An EAGER message of node 12 in a complete spill buffer. -/
def stored : Message :=
  { announced with mode := .eager, handle := 0
                   spill := some { token := 0x70, address := 0x200000, fill := .complete } }

/-- The part with one Match Store entry, number 0, of domain 2, that its lists hold as they should. -/
def holding (body : EntryBody) : State :=
  let u := { online.matching.takeEntry 2 body with nextPosting := 1 }
  online.setMatching (match body with
    | .posted _ _ => u.joinPrl 2 0
    | .ready _ => { u.joinUml 2 0 with unexpected := 1 }
    | .held _ => { u with unexpected := 1 }
    | .bound _ _ _ => u)

/-- A DATA frame of node 12 for message 30: 600 bytes with tag 0x10 in domain 2. -/
def dataFrame : Frame :=
  { kind := .data, dest := 5, source := 12, epoch := 9, seq := 30, windowBase := 30, tag := 0x10, domain := 2
    payloadLength := 256, total := 600, offset := 256, handle := 99, payload := List.replicate 256 7 }

/-- The ANNOUNCE of message 30. -/
def announceFrame : Frame := { dataFrame with kind := .announce, payloadLength := 0, offset := 0, payload := [] }

/-- An answer of node 12. -/
def answerFrame (kind : FrameKind) : Frame := { kind, dest := 5, source := 12, epoch := 9 }

/-- The frame is the oldest of lane A. -/
def framed (s : State) (f : Frame) : State := s.setLaneA { s.laneA with ingress := [f.bytes] }

theorem serves_asking {s : State} {kind : RequestKind} {r : Bytes}
    (h : s.claims.waiting = [] ∧ s.claims.locks = [] ∧ s.active = true ∧ r.length = 128 ∧ byteAt r 0 = kind.code
      ∧ requestFault s.setup.nodeId kind r = none) : (asking s).serves kind 7 r := by
  obtain ⟨h1, h2, h3, h4, h5, h6⟩ := h
  refine ⟨⟨h1, h2⟩, ?_, h4, h5, h6⟩
  simpa [State.awaitsRequest, asking, State.active] using h3

theorem accepts_framed {s : State} {f : Frame}
    (h : s.active = true ∧ s.laneA.busy = false ∧ parseFrame f.bytes = some f ∧ f.wellFormed f.bytes.length = true
      ∧ f.dest = s.setup.nodeId) : (framed s f).accepts .a f := by
  obtain ⟨h1, h2, h3, h4, h5⟩ := h
  exact ⟨h1, h2, f.bytes, rfl, h3, h4, h5⟩

theorem carries_framed {s : State} {f : Frame}
    (h : s.claims.waiting = [] ∧ s.claims.locks = [] ∧ (s.peer f.source).epoch = some f.epoch
      ∧ s.active = true ∧ s.laneA.busy = false ∧ parseFrame f.bytes = some f
      ∧ f.wellFormed f.bytes.length = true ∧ f.dest = s.setup.nodeId) : (framed s f).carries .a f :=
  ⟨⟨h.1, h.2.1⟩, accepts_framed h.2.2.2, h.2.2.1⟩

theorem placeable_of_room {s : State} (l : Lane) (h : s.laneA.queue.length < 32 ∧ s.laneB.queue.length < 32) :
    s.placeable l := by
  intro k _
  cases k <;> simp [State.queueTakes, State.lane, queueSize, h]

theorem room_of {s : State} {n : Nat}
    (h : s.ring.chq = [] ∧ occupancy s.ring.completionTail s.ring.cqHead + n ≤ s.setup.completionSize
      ∧ s.setup.completionSize ≤ 4096) : s.roomFor n := h

/-- What a context of message 30 gathers. -/
def gathering : Gather :=
  { source := 12, epoch := 9, seq := 30, handle := 99, length := 600, target := .segments receive.segments
    writeLimit := 1024, entry := 0, truncated := false, lastActivity := 960, answerLane := .a }

/-- The context of message 30 (11.5), with these pieces taken. -/
def filling (bitmap : BitVec 64) : ContextBody := .filling gathering 0x10 2 bitmap

/-- The part with context 0 in use, in generation 1, for the receive of entry 0. -/
def withContext (body : ContextBody) : State :=
  let s := holding (.bound receive { announced with context := some 0 } .pulling)
  s.setContexts { table := tabSet s.contexts.table 0 { generation := 1, body }, age := [0] }

/-! ### A Match Store that is sound -/

/-- The send windows are sound, in a form that evaluates. -/
abbrev windowChecked (s : State) : Prop :=
  (∀ k : Fin 256,
      let h := s.sendHalf (.ofFin k)
      let live := s.liveToward (.ofFin k)
      (h.nextSendSeq - h.sendBase).toNat ≤ 8 ∧ h.inFlight = live.length
        ∧ ∀ i ∈ live, ((s.sendEntry i).seq - h.sendBase).toNat < (h.nextSendSeq - h.sendBase).toNat
          ∧ ∀ j ∈ live, (s.sendEntry i).seq = (s.sendEntry j).seq → i = j)
    ∧ ∀ i,
      let e := s.sendEntry i
      (e.state.live = false → e.timer = none) ∧ (e.cancel.isSome = true ↔ e.state = .retracting)
        ∧ (e.state = .free → e.piece = .noPiece)

/-- The kind of an entry: 0 POSTED, 1 READY, 2 HELD, 3 BOUND. -/
def kindOf (e : Entry) : Nat :=
  match e.body with
  | .posted _ _ => 0
  | .ready _ => 1
  | .held _ => 2
  | .bound _ _ _ => 3

/-- An entry of this number, domain and kind is in the store. -/
abbrev holds (s : State) (d : Fin 64) (kind id : Nat) : Prop :=
  ∃ e ∈ s.matching.store, e.id = id ∧ e.domain = d ∧ kindOf e = kind

/-- An ANNOUNCE waits for a spill buffer. -/
def announces (a : Act) : Bool :=
  match a with
  | .spillWait _ f _ _ => f.kind == .announce
  | _ => false

/-- The Match Store is sound, in a form that evaluates. -/
def storeChecked (s : State) : Bool :=
  let u := s.matching
  decide ((u.store.map (·.id)).Nodup ∧ (∀ e ∈ u.store, e.id < u.nextEntry)
      ∧ u.store.length + u.free + s.spillWaits.length = 1024
      ∧ u.unexpected = (u.store.filter Entry.isUnexpected).length + s.spillWaits.length
      ∧ u.unexpected ≤ s.setup.unexpectedLimit ∧ (s.host.partState ∈ [PartState.idle, .loading] → u.unexpected = 0)
      ∧ (∀ d, (tabGet u.prl d).Nodup ∧ (tabGet u.uml d).Nodup))
    && (decide (∀ d, (∀ id ∈ tabGet u.prl d, holds s d 0 id) ∧ ∀ id ∈ tabGet u.uml d, holds s d 1 id)
      && decide (∀ e ∈ u.store,
        (kindOf e = 0 → e.id ∈ tabGet u.prl e.domain) ∧ (kindOf e = 1 → e.id ∈ tabGet u.uml e.domain)))
    && decide (∀ k : Fin 256, ((s.peer (.ofFin k)).held.map (·.entry)).Nodup
      ∧ ∀ x ∈ (s.peer (.ofFin k)).held, ∃ e ∈ u.store, e.id = x.entry ∧ kindOf e = 2
        ∧ ∀ m ∈ e.body.message, m.source = .ofFin k ∧ m.seq = x.seq)
    && decide (∀ e ∈ u.store, kindOf e = 1 ∨ kindOf e = 2 → ∀ m ∈ e.body.message,
      (m.mode = .eager ↔ m.spill.isSome = true) ∧ (m.context.isSome = true ↔ m.spill.map (·.fill) = some .filling))
    && decide (∀ a ∈ s.spillWaits, announces a = false)
    && decide ((∀ d, (s.domain d).close.isSome = true ↔ (s.domain d).state = .closing)
      ∧ s.contexts.age.Nodup ∧ ∀ c, c ∈ s.contexts.age ↔ (s.context c).body ≠ .free)
    && decide (windowChecked s)

theorem windowSound_of {s : State} (h : windowChecked s) : s.windowSound := by
  refine ⟨fun d => ?_, h.2⟩
  simpa using h.1 d.toFin

theorem storeSound_of {s : State} (h : storeChecked s = true) : s.storeSound := by
  simp only [storeChecked, Bool.and_eq_true, decide_eq_true_eq] at h
  obtain ⟨⟨⟨⟨⟨⟨⟨h1, h2, h3, h4, h5, h6, h7⟩, h8, h9⟩, h10⟩, h11⟩, h12⟩, h13, h14, h15⟩, h16⟩ := h
  refine ⟨h1, h2, h3, h4, h5, h6, h7, fun d id => ⟨fun hi => ?_, ?_⟩, fun d id => ⟨fun hi => ?_, ?_⟩,
    fun n => ?_, ?_, fun l f p a ha => by simpa [announces] using h12 _ ha, h13, h14, h15, windowSound_of h16⟩
  · obtain ⟨⟨i, d', b⟩, he, rfl, rfl, hk⟩ := (h8 d).1 id hi
    cases b <;> first | (simp [kindOf] at hk; done) | exact ⟨_, _, he⟩
  · rintro ⟨r, t, he⟩
    exact (h9 _ he).1 rfl
  · obtain ⟨⟨i, d', b⟩, he, rfl, rfl, hk⟩ := (h8 d).2 id hi
    cases b <;> first | (simp [kindOf] at hk; done) | exact ⟨_, he⟩
  · rintro ⟨m, he⟩
    exact (h9 _ he).2 rfl
  · have hn := h10 n.toFin
    refine ⟨hn.1, fun x hx => ?_⟩
    obtain ⟨⟨i, d', b⟩, he, rfl, hk, hm⟩ := hn.2 x hx
    cases b <;> first | (simp [kindOf] at hk; done) | exact ⟨_, _, he, (hm _ rfl).1, (hm _ rfl).2⟩
  · rintro ⟨i, d, b⟩ he m (hb | hb) <;> cases hb
    · exact h11 _ he (Or.inr rfl) m rfl
    · exact h11 _ he (Or.inl rfl) m rfl

/-- Message 32 of node 12, in a spill buffer that context 0 fills. -/
def late : Message :=
  { stored with seq := 32, spill := some { token := 0x71, address := 0x200400, fill := .filling }, context := some 0 }

/-- Domain 2 with a POSTED entry 0 and a READY entry 1, and with messages 31 and 32 of node 12 HELD, entries 3 and 2. -/
def populated : State :=
  let u := ((online.matching.takeEntry 2 (.posted receive none)).joinPrl 2 0).takeEntry 2 (.ready stored)
  let u := ((u.joinUml 2 1).takeEntry 2 (.held late)).takeEntry 2 (.held { announced with seq := 31 })
  ((online.setMatching { u with unexpected := 3, nextPosting := 1 }).setPeer 12
      { online.peer 12 with
        ahead := 3, held := [{ seq := 31, entry := 3 }, { seq := 32, entry := 2 }], gapTimer := some 2000 }).setContexts
    { table := tabSet online.contexts.table 0
        { generation := 1
          body := .filling { gathering with seq := 32, entry := 2, target := .spill 0x200400 } 0x10 2 1 }
      age := [0] }

/-- The HELD entries of that part, by sequence. -/
def heldEntries : List Entry :=
  [{ id := 3, domain := 2, body := .held { announced with seq := 31 } }, { id := 2, domain := 2, body := .held late }]

theorem populated_store : populated.matching.store
    = { id := 0, domain := 2, body := .posted receive none } :: { id := 1, domain := 2, body := .ready stored }
      :: heldEntries.reverse := by decide +kernel

theorem populated_sound : populated.storeSound := storeSound_of (by decide +kernel)

/-! The Match Store is sound whatever the lanes, the Request Ring read and the Spill Cache hold, and stays so when a DATA
opening has taken an entry and waits. -/

theorem storeSound_framed {s : State} (f : Frame) (h : s.storeSound) : (framed s f).storeSound := h

theorem storeSound_asking {s : State} (h : s.storeSound) : (asking s).storeSound := h

theorem storeSound_setSpill {s : State} (c : SpillCache) (h : s.storeSound) : (s.setSpill c).storeSound := h

theorem storeSound_waiting {s : State} {l : Lane} {f : Frame} {ahead advanced : Bool} (locks : List Lock)
    (h : s.storeSound) (hw : s.claims.waiting = []) (hf : f.kind ≠ .announce) (h0 : s.matching.free ≠ 0)
    (hl : s.matching.unexpected < s.setup.unexpectedLimit) (hp : s.host.partState = .online) :
    ((s.setMatching { s.matching with free := s.matching.free - 1, unexpected := s.matching.unexpected + 1 }).setClaims
      { Claims.reset with waiting := [[.spillWait l f ahead advanced]], locks }).storeSound := by
  obtain ⟨h1, h2, h3, h4, -, -, h7, h8, h9, h10, h11, -, h13⟩ := h
  have hn : s.spillWaits = [] := by simp [State.spillWaits, hw]
  rw [hn] at h3 h4
  refine ⟨h1, h2, ?_, ?_, hl, fun hi => absurd hi (by simp [hp, State.setMatching, State.setClaims]), h7, h8, h9, h10,
    h11, ?_, h13⟩
  · show s.matching.store.length + (s.matching.free - 1) + 1 = 1024
    simp only [List.length_nil] at h3
    omega
  · exact congrArg (· + 1) h4
  · intro l' f' p a hm
    obtain ⟨-, rfl, -, -⟩ : l' = l ∧ f' = f ∧ p = ahead ∧ a = advanced := by
      simpa [State.spillWaits, State.setClaims] using hm
    exact hf

theorem heldEntries_before : heldEntries.Pairwise Entry.before := by
  simp [heldEntries, Entry.before, announced, late, stored]

/-! ### Ill-formed commands are refused -/

theorem test_wf_part_ctl : (Instr.partCtlOtherValue 3).wf = false := by decide
theorem test_wf_register_own_row : (Instr.registerWrite 0x020 4 1).wf = false := by decide
theorem test_wf_register_size : (Instr.registerWrite 0x010 5 1).wf = false := by decide
theorem test_wf_setup_block : (Instr.setupBlockReadDone 0 (some [0])).wf = false := by decide
theorem test_wf_nop_kind : (Instr.nop 0 (record 2)).wf = false := by decide +kernel
theorem test_wf_post_recv_length : (Instr.postRecv 0 [2]).wf = false := by decide
theorem test_wf_cancel_recv_kind : (Instr.cancelRecv 0 (record 4)).wf = false := by decide +kernel
theorem test_wf_probe_kind : (Instr.probe 0 (record 3)).wf = false := by decide +kernel
theorem test_wf_send_kind : (Instr.send 0 (record 6)).wf = false := by decide +kernel
theorem test_wf_cancel_send_kind : (Instr.cancelSend 0 (record 5)).wf = false := by decide +kernel
theorem test_wf_domain_open_kind : (Instr.domainOpen 0 (record 8)).wf = false := by decide +kernel
theorem test_wf_domain_close_kind : (Instr.domainClose 0 (record 7)).wf = false := by decide +kernel
theorem test_wf_stats_kind : (Instr.stats 0 (record 1)).wf = false := by decide +kernel
theorem test_wf_unknown_kind : (Instr.unknownKindRequest 0 (record 9)).wf = false := by decide +kernel
theorem test_wf_spill_slot : (Instr.spillFetchDone 0 [0]).wf = false := by decide
theorem test_wf_send_read : (Instr.sendReadReturn 0 []).wf = false := by decide
theorem test_wf_chunk : (Instr.drainChunkReadReturn 0 [] 1).wf = false := by decide

/-! ### Worked values -/

/-- The CRC of R36 on the nine digits: the published check value of CRC-32/BZIP2, which is this CRC. -/
theorem test_crc_check_value :
    crc32 [0x31, 0x32, 0x33, 0x34, 0x35, 0x36, 0x37, 0x38, 0x39] = 0xFC891918#32 := by decide +kernel

/-- R84: a piece at offset 256 with segments of 100, 300 and 200 bytes is 144 bytes at 156 and 112 at 0. -/
theorem test_scatter_example :
    (scatter [⟨0x1000, 100⟩, ⟨0x2000, 300⟩, ⟨0x3000, 200⟩] 256 (List.replicate 256 0)).map
      (fun w => (w.1, w.2.length)) = [(0x2000 + 156, 144), (0x3000, 112)] := by decide +kernel

/-- R161: in a ring of 16 slots, count 44 is in slot 12 with marker 1, and count 48 in slot 0 with marker 0. -/
theorem test_lap_marker_example :
    lapMarker 44 16 = true ∧ slotAddress 0 44 16 32 = 12 * 32 ∧ lapMarker 48 16 = false ∧ slotAddress 0 48 16 32 = 0 := by
  decide

/-- 11.8: entry 3 in generation 7 has handle 227. -/
theorem test_handle_example : makeHandle 3 7 = 227 ∧ handleIndex 227 = 3 ∧ handleGeneration 227 = 7 := by decide

/-- 11.9: epoch 10 is newer than 9, and 9 is older than 10. -/
theorem test_epoch_example : compareEpoch 9 10 = .newer ∧ compareEpoch 10 9 = .older := by decide

/-- 11.6: tag 0x2F with the low four bits ignored matches tag 0x20. -/
theorem test_mask_example : accepts 0xFFFF 0x2F 0xF { announced with tag := 0x20 } = true := by decide

/-- R181, 11.2: PART_STATE of a part ONLINE with both lanes UP (R178: state 2, lanes 3). -/
theorem test_part_state_register : online.readRegister 0x008 = 0x00033002#32 := by decide +kernel

/-- 7.9: a loss of signal on a lane of three queued frames drops them, counts 3, and empties its credits. -/
theorem test_fault_example :
    let s := online.setLaneA { upLane with queue := List.replicate 3 (answerFrame .ack), credits := 0 }
    let t := s.enterFault .a 5
    t.laneA.state = .fault ∧ t.laneA.queue = [] ∧ tabGet t.counters.values 13 = 3 := by decide +kernel

/-! ### Witnesses: Chapter 9 -/

theorem test_StepRunsFrontCommand : State.reset.pending = [] := by decide

theorem test_StartLoadsOrResumes :
    State.reset.host.partState = .idle ∧ (inState .stopped).host.partState = .stopped := by decide +kernel

theorem test_StopStops : online.host.partState = .online := by decide +kernel

/-- The three ways a PART_CTL write is void. -/
theorem test_VoidCommandsIgnored :
    online.host.partState ∉ [PartState.idle, .stopped] ∧ (inState .stopping).host.partState ≠ .online
      ∧ (Instr.partCtlOtherValue 0).wf = true ∧ (Instr.partCtlOtherValue 4).wf = true := by decide +kernel

/-- A loading whose Setup Block read is number 0. -/
def loading : State :=
  State.reset.setHost { HostPort.reset with partState := .loading, setupRead := some { tag := 0, address := 0x1000 } }

theorem setupRejected_of {bytes : Bytes} {code : Nat}
    (h : bytes.length = setupLength ∧ (parseSetup bytes).failsCheck code = true
      ∧ ∀ j, j < code → (parseSetup bytes).failsCheck j = false) : setupRejected (some bytes) code := by
  refine ⟨h.1, (fails_iff _ _).2 h.2.1, fun j hj hf => ?_⟩
  have := h.2.2 j hj
  rw [(fails_iff _ _).1 hf] at this
  exact Bool.noConfusion this

/-- Every setup error code, 1 to 8, is met first by some answer. -/
theorem test_SetupBlockRejected : loading.awaitsSetup 0 = true ∧ setupRejected none 1
    ∧ setupRejected (some (setupBlock 48 0x50000 3 10 1024 4096 40)) 2
    ∧ setupRejected (some (setupBlock 64 0x50010 3 10 1024 4096 40)) 3
    ∧ setupRejected (some (setupBlock 64 0x50000 4 10 1024 4096 40)) 4
    ∧ setupRejected (some (setupBlock 64 0x50000 3 1001 1024 4096 40)) 5
    ∧ setupRejected (some (setupBlock 64 0x50000 3 10 16640 4096 40)) 6
    ∧ setupRejected (some (setupBlock 64 0x50000 3 10 1024 16385 40)) 7
    ∧ setupRejected (some (setupBlock 64 0x50000 3 10 1024 4096 0)) 8 := by
  refine ⟨?_, rfl, setupRejected_of ?_, setupRejected_of ?_, setupRejected_of ?_, setupRejected_of ?_,
    setupRejected_of ?_, setupRejected_of ?_, setupRejected_of ?_⟩ <;> decide +kernel

/-- The block of Chapter 11, and the largest values R180 lets pass. -/
theorem test_SetupBlockLoads : loading.awaitsSetup 0 = true ∧ goodBlock.length = 128
    ∧ (∀ j, ¬ (parseSetup goodBlock).fails j)
    ∧ ∀ j, ¬ (parseSetup (setupBlock 4096 0x50000 1 1000 16384 16384 65535)).fails j := by
  have h : ∀ b : Bytes, (∀ j, j < 9 → (parseSetup b).failsCheck j = false) → ∀ j, ¬ (parseSetup b).fails j := by
    intro b hb j hf
    have ht := (fails_iff _ _).1 hf
    have := hb j (by have := failsCheck_code ht; omega)
    rw [ht] at this
    exact Bool.noConfusion this
  exact ⟨by decide +kernel, by decide +kernel, h _ (by decide +kernel), h _ (by decide +kernel)⟩

/-- SETUP_ADDR_LO, SETUP_ADDR_HI, a short write to PART_CTL, and an offset of no register. -/
theorem test_RegisterWindow : (Instr.registerWrite 0x010 4 0xFFFFFFFF).wf = true ∧ (Instr.registerWrite 0x014 4 1).wf = true
    ∧ (Instr.registerWrite 0x004 3 1).wf = true ∧ (Instr.registerWrite 0xFFC 4 1).wf = true
    ∧ online.host.setupError ≤ 8 := by decide +kernel

theorem test_RingReadErrorsFail : online.calm ∧ (asking online).awaitsRequest 7 = true
    ∧ (online.setSpill { SpillCache.reset with fetch := .reading 7 }).awaitsSpill 7 = true := by
  refine ⟨⟨?_, ?_⟩, ?_⟩ <;> decide +kernel

theorem test_FailedStands : (inState .failed).host.partState = .failed ∧ Instr.tick.wf = true ∧ Instr.tick ≠ .reset
    ∧ Instr.tick ≠ .powerOn := by decide +kernel

/-! ### Witnesses: Chapter 8 -/

/-- R157 at its bound: a tail write that fills the Request Ring of 64 is taken, one more is not. -/
theorem test_TailWrites : State.reset.active = false ∧ online.active = true
    ∧ (online.ring.rqTail - online.ring.requestHead).toNat ≤ ((64 : BitVec 16) - online.ring.requestHead).toNat
    ∧ ((64 : BitVec 16) - online.ring.requestHead).toNat ≤ online.setup.requestSize
    ∧ ¬ ((65 : BitVec 16) - online.ring.requestHead).toNat ≤ online.setup.requestSize := by decide +kernel

/-- A CQ_HEAD write that frees every slot, with a completion held; and one that consumes one too many. -/
theorem test_HeadWrites :
    let s := online.setRing { online.ring with completionTail := 64, chq := [{ kind := 1 }] }
    s.active = true ∧ ((64 : BitVec 16) - s.ring.cqHead).toNat ≤ (s.ring.completionTail - s.ring.cqHead).toNat
      ∧ s.setup.completionSize ≤ 4096
      ∧ (s.ring.completionTail - s.ring.cqHead).toNat < ((65 : BitVec 16) - s.ring.cqHead).toNat := by decide +kernel

theorem room_online : online.ring.chq = [] ∧ occupancy online.ring.completionTail online.ring.cqHead + 64
    ≤ online.setup.completionSize ∧ online.setup.completionSize ≤ 4096 := by decide +kernel

/-- A completion that waits for its place. -/
def waitingCompletion : Completion := { kind := 1, cookie := 3 }

/-- A NOP with room for its completion; one with the Completion Ring full, or with 15 completions held; and one with 16
held. -/
theorem test_NopCompletes :
    let r := record 1 (flags := 1) (cookie := 5)
    let held (n : Nat) := online.setRing { online.ring with chq := List.replicate n waitingCompletion }
    let full := online.setRing { online.ring with completionTail := 64 }
    (asking online).serves .nop 7 r ∧ (asking online).roomFor 1 ∧ (asking full).serves .nop 7 r
      ∧ full.setup.completionSize ≤ (full.ring.completionTail - full.ring.cqHead).toNat ∧ full.ring.chq.length < 16
      ∧ (asking (held 15)).serves .nop 7 r ∧ (held 15).ring.chq ≠ [] ∧ (held 15).ring.chq.length < 16
      ∧ (asking (held 16)).serves .nop 7 r ∧ 16 ≤ (held 16).ring.chq.length := by
  refine ⟨serves_asking ?_, room_of ?_, serves_asking ?_, ?_, ?_, serves_asking ?_, ?_, ?_, serves_asking ?_, ?_⟩
    <;> decide +kernel

/-- The checks of R165 evaluate. -/
def decidesFails (own : Node) (kind : RequestKind) (r : Bytes) (code : Nat) : Decidable (recordFails own kind r code) := by
  unfold recordFails unusedByte
  split <;> infer_instance

theorem failsFirst {own : Node} {kind : RequestKind} {r : Bytes} {code : Nat}
    (h : (@decide _ (decidesFails own kind r code)
      && (List.range code).all fun j => !@decide _ (decidesFails own kind r j)) = true) :
    recordFails own kind r code ∧ ∀ j, j < code → ¬ recordFails own kind r j := by
  simpa using h

/-- For each check from 2 to 11 a record that fails it first, and a record of kind 10. -/
theorem test_BadRequestsComplete : (asking online).calm ∧ (asking online).awaitsRequest 7 = true
    ∧ (asking online).roomFor 1
    ∧ (∀ x ∈ [(2, RequestKind.nop, record 1 (flags := 2)), (3, .send, record 5 (segmentCount := 5)),
          (4, .nop, record 1 (domain := 1)), (5, .send, record 5 (segmentCount := 1)),
          (6, .send, record 5 (segmentCount := 1) (segments := [(0, 4194305)])), (7, .domainOpen, record 7 (domain := 64)),
          (8, .postRecv, record 2 (segmentCount := 1) (peer := 256) (segments := [(0, 1)])), (9, .send, record 5 (peer := 5)),
          (10, .postRecv, record 2 (flags := 2) (segmentCount := 1) (segments := [(0, 1)])),
          (11, .stats, record 9 (target := 32))],
        x.2.2.length = 128 ∧ byteAt x.2.2 0 = x.2.1.code ∧ recordFails (asking online).setup.nodeId x.2.1 x.2.2 x.1
          ∧ ∀ j, j < x.1 → ¬ recordFails (asking online).setup.nodeId x.2.1 x.2.2 j)
    ∧ (Instr.unknownKindRequest 7 (record 10)).wf = true := by
  refine ⟨⟨?_, ?_⟩, ?_, room_of ?_, ?_, ?_⟩
  case refine_5 =>
    simp only [List.forall_mem_cons]
    refine ⟨?_, ?_, ?_, ?_, ?_, ?_, ?_, ?_, ?_, ?_, by simp⟩ <;> exact ⟨rfl, rfl, failsFirst (by decide +kernel)⟩
  all_goals decide +kernel

/-! ### Witnesses: Chapter 1 -/

/-- A READY and a POSTED entry found, and neither. -/
theorem test_SearchesFindTheirEntry :
    (holding (.ready announced)).matching.searchUml 2 0xFFFF 0x10 0 = some (0, announced)
      ∧ online.matching.searchUml 2 0xFFFF 0x10 0 = none
      ∧ (holding (.posted receive none)).matching.searchPrl 2 announced = some (0, receive)
      ∧ online.matching.searchPrl 2 announced = none
      ∧ (holding (.posted receive none)).matching.findReceive 2 0xA1
        = some { id := 0, domain := 2, body := .posted receive none }
      ∧ online.matching.findReceive 2 0xA1 = none := by decide +kernel

theorem test_DomainOpens :
    (asking online).serves .domainOpen 7 (record 7 (domain := 63)) ∧ (asking online).roomFor 1 := by
  refine ⟨serves_asking ?_, room_of ?_⟩ <;> decide +kernel

/-- A close of a CLOSED domain, and one of domain 2 with POSTED, READY and HELD entries, which post four completions. -/
theorem test_DomainCloses :
    let s := asking populated
    (asking online).serves .domainClose 7 (record 8 (domain := 3)) ∧ (asking online).roomFor 1
      ∧ ((asking online).domain (parseRequest (record 8 (domain := 3))).domain).state ≠ .opened
      ∧ s.serves .domainClose 7 (record 8 (domain := 2)) ∧ s.storeSound ∧ s.roomFor 4
      ∧ (s.domain (parseRequest (record 8 (domain := 2))).domain).state = .opened ∧ heldEntries.Pairwise Entry.before
      ∧ ∀ e, e ∈ heldEntries ↔ e ∈ s.matching.store ∧ e.domain = 2 ∧ ∃ m, e.body = .held m := by
  refine ⟨serves_asking ?_, room_of ?_, ?_, serves_asking ?_, storeSound_asking populated_sound, room_of ?_, ?_,
    heldEntries_before, fun e => ?_⟩
  case refine_7 =>
    rw [show (asking populated).matching.store = populated.matching.store from rfl, populated_store]
    simp only [heldEntries, List.reverse_cons, List.reverse_nil, List.nil_append, List.cons_append, List.mem_cons,
      List.not_mem_nil, or_false]
    constructor
    · rintro (rfl | rfl) <;> simp
    · rintro ⟨rfl | rfl | rfl | rfl, -, m, h⟩ <;> simp at h ⊢
  all_goals decide +kernel

/-- A POST_RECV of Chapter 11 (11.5). -/
def postRecord : Bytes :=
  record 2 (flags := 1) (segmentCount := 1) (domain := 2) (peer := 12) (cookie := 0xA1) (tag := 0x10)
    (segments := [(0x100000, 1024)])

theorem test_PostRecvPosts :
    (asking online).serves .postRecv 7 postRecord
      ∧ ((asking online).domain (parseRequest postRecord).domain).state = .opened
      ∧ (asking online).matching.searchUml 2 12 0x10 0 = none ∧ (asking online).matching.free ≠ 0 := by
  refine ⟨serves_asking ?_, ?_⟩ <;> decide +kernel

/-- The four wait states of a binding have a message each. -/
theorem test_PostRecvBinds : ∀ m ∈ [announced, stored, { stored with spill := none },
      { stored with spill := some { token := 0x70, address := 0x200000, fill := .filling } }],
    let s := asking (holding (.ready m))
    s.serves .postRecv 7 postRecord ∧ (s.domain (parseRequest postRecord).domain).state = .opened
      ∧ s.matching.searchUml 2 12 0x10 0 = some (0, m) := by
  intro m hm
  have h : ∀ m ∈ [announced, stored, { stored with spill := none },
      { stored with spill := some { token := 0x70, address := 0x200000, fill := .filling } }],
      let s := holding (.ready m)
      (s.claims.waiting = [] ∧ s.claims.locks = [] ∧ s.active = true ∧ postRecord.length = 128
        ∧ byteAt postRecord 0 = RequestKind.postRecv.code ∧ requestFault s.setup.nodeId .postRecv postRecord = none)
        ∧ ((asking s).domain (parseRequest postRecord).domain).state = .opened
        ∧ (asking s).matching.searchUml 2 12 0x10 0 = some (0, m) := by decide +kernel
  exact ⟨serves_asking (h m hm).1, (h m hm).2⟩

/-- The part with an empty pool. -/
def noPool : State := online.setMatching { online.matching with free := 0 }

/-- A domain that is CLOSED, and an empty pool. -/
theorem test_PostRecvRefused :
    (asking online).serves .postRecv 7 (record 2 (segmentCount := 1) (segments := [(0, 1)]))
      ∧ (asking online).roomFor 1 ∧ ((asking online).domain 0).state ≠ .opened
      ∧ (asking noPool).serves .postRecv 7 postRecord ∧ (asking noPool).roomFor 1
      ∧ ((asking noPool).domain 2).state = .opened ∧ (asking noPool).matching.searchUml 2 12 0x10 0 = none
      ∧ (asking noPool).matching.free = 0 := by
  refine ⟨serves_asking ?_, room_of ?_, ?_, serves_asking ?_, room_of ?_, ?_⟩ <;> decide +kernel

/-- A cancel that finds nothing, a POSTED receive and a BOUND one. -/
theorem test_CancelRecvCancels :
    let r := record 3 (domain := 2) (cookie := 9) (target := 0xA1)
    let posted : Entry := { id := 0, domain := 2, body := .posted receive none }
    let bound : Entry := { id := 0, domain := 2, body := .bound receive announced .awaitContext }
    (asking online).serves .cancelRecv 7 r ∧ (asking online).roomFor 2
      ∧ (asking online).matching.findReceive 2 0xA1 = none
      ∧ (asking (holding posted.body)).serves .cancelRecv 7 r
      ∧ (asking (holding posted.body)).matching.findReceive 2 0xA1 = some posted
      ∧ (asking (holding posted.body)).matching.find 0 = some posted
      ∧ (asking (holding bound.body)).serves .cancelRecv 7 r
      ∧ (asking (holding bound.body)).matching.findReceive 2 0xA1 = some bound := by
  refine ⟨serves_asking ?_, room_of ?_, ?_, serves_asking ?_, ?_, ?_, serves_asking ?_, ?_⟩ <;> decide +kernel

/-- A probe of a CLOSED domain, one that finds nothing and one that finds a message. -/
theorem test_ProbeReports :
    let r := record 4 (domain := 2) (peer := 0xFFFF) (tag := 0x10)
    (asking online).serves .probe 7 (record 4) ∧ (asking online).roomFor 1 ∧ ((asking online).domain 0).state ≠ .opened
      ∧ (asking online).serves .probe 7 r ∧ (asking online).matching.searchUml 2 0xFFFF 0x10 0 = none
      ∧ (asking (holding (.ready stored))).serves .probe 7 r
      ∧ (asking (holding (.ready stored))).matching.searchUml 2 0xFFFF 0x10 0 = some (0, stored) := by
  refine ⟨serves_asking ?_, room_of ?_, ?_, serves_asking ?_, ?_, serves_asking ?_, ?_⟩ <;> decide +kernel

/-- The populated part whose domain 3 closes, with the BOUND entry 4 for a message of node 12 in the Pull Queue. -/
def restarting : State :=
  let u := populated.matching.takeEntry 3 (.bound { receive with order := 1 } announced .awaitContext)
  (populated.setMatching { u with pullQueue := [4], nextPosting := 2 }).setDomain 3
    { state := .closing, close := some { cookie := 1, notify := true } }

/-- Its BOUND entry. -/
def boundEntry : Entry := { id := 4, domain := 3, body := .bound { receive with order := 1 } announced .awaitContext }

/-- A restart of node 12 with a BOUND entry and two HELD ones. -/
theorem test_BoundEntriesEnd_restart : restarting.storeSound
    ∧ (∀ e, e ∈ [boundEntry] ↔ e ∈ restarting.matching.store ∧ ∃ r m wait, e.body = .bound r m wait ∧ m.source = 12
      ∧ wait ∉ [WaitState.awaitDrain, .draining])
    ∧ (∀ e, e ∈ heldEntries ↔ e ∈ restarting.matching.store ∧ ∃ m, e.body = .held m ∧ m.source = 12)
    ∧ heldEntries.Pairwise Entry.before := by
  have hs : restarting.matching.store = populated.matching.store ++ [boundEntry] := by decide +kernel
  refine ⟨storeSound_of (by decide +kernel), fun e => ?_, fun e => ?_, heldEntries_before⟩ <;>
    rw [hs, populated_store] <;>
    simp only [heldEntries, List.reverse_cons, List.reverse_nil, List.nil_append, List.cons_append, List.mem_cons,
      List.not_mem_nil, or_false]
  · constructor
    · rintro rfl
      exact ⟨by simp, _, _, _, rfl, rfl, by decide⟩
    · rintro ⟨rfl | rfl | rfl | rfl | rfl, r, m, w, h, -⟩ <;> first | rfl | cases h
  · constructor
    · rintro (rfl | rfl) <;> exact ⟨by simp, _, rfl, rfl⟩
    · rintro ⟨rfl | rfl | rfl | rfl | rfl, m, h, -⟩ <;> first | exact Or.inl rfl | exact Or.inr rfl | cases h

/-- A BOUND entry whose end does not close its domain, and one whose end does; a HELD and a READY entry. -/
theorem test_BoundEntriesEnd :
    let s := holding (.bound receive announced .awaitContext)
    let t := s.setDomain 2 { state := .closing, close := some { cookie := 1, notify := true } }
    s.matching.find 0 = some { id := 0, domain := 2, body := .bound receive announced .awaitContext }
      ∧ (s.domain 2).state ≠ .closing ∧ t.matching.find 0 = s.matching.find 0
      ∧ (t.domain 2).state = .closing ∧ (t.domain 2).close.isSome = true
      ∧ t.matching.store.filter (·.id ≠ 0) = []
      ∧ populated.matching.find 1 = some { id := 1, domain := 2, body := .ready stored }
      ∧ populated.matching.find 2 = some { id := 2, domain := 2, body := .held late } := by decide +kernel

/-! ### Witnesses: Chapter 6 -/

/-- A SEND of 512 bytes to node 12, as the backlog holds it. -/
def backlogged (mode : Mode) (length : Nat) : Backlogged :=
  { cookie := 0xD1, dest := 12, domain := 2, tag := 0x40, segments := [{ address := 0x300000, length }], length
    notify := true, mode, order := 0 }

/-- Entry 3 of the Send Table in generation 7 (11.8), for sequence 50. -/
def sendEntry (state : SendState) (mode : Mode) (length : Nat) : SendEntry :=
  { SendEntry.reset with
    state, generation := 7, cookie := 0xD1, domain := 2, tag := 0x40, notify := true, dest := 12, seq := 50, mode
    length, segments := [{ address := 0x300000, length }] }

/-- The part with that entry. -/
def sends (e : SendEntry) : State :=
  (online.setSendEntry 3 e).setSendHalf 12 { nextSendSeq := 51, sendBase := 50, inFlight := 1 }

/-- The part with a backlog. -/
def backlog (bs : List Backlogged) : State := online.setSending { online.sending with backlog := bs }

/-- Three entries live toward node 12, in the order of their sequence numbers. -/
theorem test_EntriesResolve :
    let s := ((sends (sendEntry .waitAck .rendezvous 600)).setSendEntry 1
      { sendEntry .streaming .rendezvous 600 with seq := 52 }).setSendEntry 2
      { sendEntry .eagerSending .eager 600 with seq := 51 }
    (∀ i, i ∈ [(3 : Fin 32), 2, 1] ↔ (s.sendEntry i).state.live = true ∧ (s.sendEntry i).dest = 12)
      ∧ [(3 : Fin 32), 2, 1].Pairwise fun i j =>
        ((s.sendEntry i).seq - (s.sendHalf 12).sendBase).toNat < ((s.sendEntry j).seq - (s.sendHalf 12).sendBase).toNat := by
  decide +kernel

/-- A SEND that joins the backlog, and one that finds it full. -/
theorem test_SendJoinsBacklog :
    let r := record 5 (segmentCount := 1) (domain := 2) (peer := 12) (segments := [(0x300000, 20000)])
    let full := backlog (List.replicate 64 (backlogged .eager 8))
    (asking online).serves .send 7 r ∧ (asking online).roomFor 1 ∧ (asking full).serves .send 7 r
      ∧ (asking full).roomFor 1 ∧ (asking full).sending.backlog.length = 64 := by
  refine ⟨serves_asking ?_, room_of ?_, serves_asking ?_, room_of ?_, ?_⟩ <;> decide +kernel

/-- A cancel that finds nothing, a backlog entry, an entry in WAIT_PULL and one past it. -/
theorem test_CancelSendCancels :
    let r := record 6 (cookie := 0xE1) (target := 0xD1)
    let wait := asking (sends (sendEntry .waitPull .rendezvous 20000))
    let ack := asking (sends (sendEntry .waitAck .rendezvous 20000))
    (asking online).serves .cancelSend 7 r ∧ (asking online).roomFor 2 ∧ (asking online).findSend 0xD1 = none
      ∧ (asking (backlog [backlogged .eager 8])).serves .cancelSend 7 r
      ∧ (asking (backlog [backlogged .eager 8])).findSend 0xD1 = some (.backlog (backlogged .eager 8))
      ∧ wait.serves .cancelSend 7 r ∧ wait.findSend 0xD1 = some (.entry 3) ∧ (wait.sendEntry 3).state = .waitPull
      ∧ wait.placeable (wait.sendEntry 3).announceLane
      ∧ ack.serves .cancelSend 7 r ∧ ack.findSend 0xD1 = some (.entry 3) ∧ (ack.sendEntry 3).state ≠ .waitPull := by
  refine ⟨serves_asking ?_, room_of ?_, ?_, serves_asking ?_, ?_, serves_asking ?_, ?_, ?_, placeable_of_room _ ?_,
    serves_asking ?_, ?_⟩ <;> decide +kernel

/-- An answer of node 12 about entry 3. -/
def toEntry (kind : FrameKind) (flags : BitVec 4) (reason : BitVec 8) (total : BitVec 32) : Frame :=
  { answerFrame kind with seq := 50, handle := 227, flags, reason, total }

/-- The entry in the state, and the frame that names it or none. -/
theorem carries_entry (f : Frame)
    (h : parseFrame f.bytes = some f ∧ f.wellFormed f.bytes.length = true ∧ f.dest = 5 ∧ f.source = 12 ∧ f.epoch = 9)
    (state : SendState) (mode : Mode) (length : Nat) :
    (framed (sends (sendEntry state mode length)) f).carries .a f := by
  obtain ⟨h1, h2, h3, h4, h5⟩ := h
  refine carries_framed ⟨rfl, rfl, ?_, rfl, rfl, h1, h2, ?_⟩
  · rw [h4, h5]; exact (by decide +kernel : (online.peer 12).epoch = some 9)
  · rw [h3]; exact (by decide +kernel : (5 : Node) = online.setup.nodeId)

/-- An ACK, a REFUSE and an ABORT that name an entry, in each state an ACK may find it in. -/
theorem test_AnswersEndSends :
    (framed (sends (sendEntry .waitAck .rendezvous 600)) (toEntry .ack 0 0 0)).carries .a (toEntry .ack 0 0 0)
      ∧ (framed online (toEntry .ack 0 0 0)).carries .a (toEntry .ack 0 0 0)
      ∧ (framed online (toEntry .ack 0 0 0)).namedEntry (toEntry .ack 0 0 0) = none
      ∧ (framed (sends (sendEntry .waitPull .rendezvous 600)) (toEntry .refuse 0 7 0)).carries .a (toEntry .refuse 0 7 0)
      ∧ (framed (sends (sendEntry .streaming .rendezvous 600)) (toEntry .abort 0 5 0)).carries .a (toEntry .abort 0 5 0)
      ∧ (toEntry .abort 0 5 0).toReceiver = false
      ∧ (framed (sends (sendEntry .retracting .rendezvous 600)) (toEntry .ack 1 0 0)).carries .a (toEntry .ack 1 0 0)
      ∧ (toEntry .ack 1 0 0).retracted = true ∧ (toEntry .ack 0 0 0).retracted = false
      ∧ ∀ state ∈ [SendState.waitAck, .waitPull, .retracting, .eagerSending, .streaming],
          let s := framed (sends (sendEntry state .rendezvous 600)) (toEntry .ack 0 0 0)
          s.namedEntry (toEntry .ack 0 0 0) = some 3 ∧ s.ring.chq = []
            ∧ occupancy s.ring.completionTail s.ring.cqHead + 2 ≤ s.setup.completionSize := by
  refine ⟨carries_entry _ ?_ _ _ _, carries_framed ?_, ?_, carries_entry _ ?_ _ _ _, carries_entry _ ?_ _ _ _, ?_,
    carries_entry _ ?_ _ _ _, ?_⟩ <;> decide +kernel

/-- A PULL for the whole message, with the receiver's context reference. -/
def pullFrame (total : BitVec 32) : Frame := { toEntry .pull 0 0 total with contextRef := 0x0105 }

/-- A PULL of the whole length for an entry in WAIT_PULL with no more than one completion to give. -/
theorem test_PullStartsStream :
    let s := framed (sends (sendEntry .waitPull .rendezvous 600)) (pullFrame 600)
    s.carries .a (pullFrame 600) ∧ s.namedEntry (pullFrame 600) = some 3
      ∧ (pullFrame 600).total.toNat ≤ (s.sendEntry 3).length ∧ (s.sendEntry 3).state = .waitPull
      ∧ s.host.partState = .online ∧ s.roomFor 1 := by
  refine ⟨carries_entry _ ?_ _ _ _, ?_, ?_, ?_, ?_, room_of ?_⟩ <;> decide +kernel

/-- A PULL of no entry, one past pulling, one byte too long, and one that comes in STOPPING. -/
theorem test_PullsAnsweredByAbort :
    let past := framed (sends (sendEntry .waitAck .rendezvous 600)) (pullFrame 600)
    let long := framed (sends (sendEntry .waitPull .rendezvous 600)) (pullFrame 601)
    let stop := (framed (sends (sendEntry .waitPull .rendezvous 600)) (pullFrame 600)).setHost (inState .stopping).host
    (framed online (pullFrame 600)).carries .a (pullFrame 600)
      ∧ (framed online (pullFrame 600)).namedEntry (pullFrame 600) = none ∧ past.carries .a (pullFrame 600)
      ∧ past.placeable .a ∧ past.namedEntry (pullFrame 600) = some 3 ∧ (past.sendEntry 3).state = .waitAck
      ∧ long.carries .a (pullFrame 601) ∧ (long.sendEntry 3).length < (pullFrame 601).total.toNat
      ∧ stop.carries .a (pullFrame 600) ∧ stop.namedEntry (pullFrame 600) = some 3
      ∧ (stop.sendEntry 3).state = .waitPull ∧ stop.host.partState ≠ .online ∧ stop.roomFor 2 := by
  refine ⟨carries_framed ?_, ?_, carries_entry _ ?_ _ _ _, placeable_of_room _ ?_, ?_, ?_, carries_entry _ ?_ _ _ _,
    ?_, carries_framed (s := (sends (sendEntry .waitPull .rendezvous 600)).setHost (inState .stopping).host) ?_, ?_, ?_,
    ?_, room_of ?_⟩ <;> decide +kernel

/-- The entry with read 5 of its first piece outstanding. -/
def reading (state : SendState) : State :=
  sends { sendEntry state .rendezvous 600 with
    pullLength := 600, nextOffset := 256, piece := .reading 0 [{ tag := 5, length := 256, data := none }] }

/-- A read of a STREAMING, of an EAGER_SENDING and of a RETIRING entry, with its bytes or with an error. -/
theorem test_SendReadsReturn : ∀ state ∈ [SendState.streaming, .eagerSending, .retiring],
    let s := reading state
    s.calm ∧ s.active = true ∧ s.readEntry 5 = some 3
      ∧ (s.sendEntry 3).piece = .reading 0 [{ tag := 5, length := 256, data := none }]
      ∧ s.awaitsSendRead 5 256 = true ∧ (state ≠ .retiring → (s.sendEntry 3).state.live = true) ∧ s.roomFor 2
      ∧ s.placeable (s.sendEntry 3).pinnedLane := by
  intro state hs
  have h : ∀ state ∈ [SendState.streaming, .eagerSending, .retiring],
      let s := reading state
      s.active = true ∧ s.readEntry 5 = some 3
        ∧ (s.sendEntry 3).piece = .reading 0 [{ tag := 5, length := 256, data := none }]
        ∧ s.awaitsSendRead 5 256 = true ∧ (state ≠ .retiring → (s.sendEntry 3).state.live = true) ∧ s.ring.chq = []
        ∧ occupancy s.ring.completionTail s.ring.cqHead + 2 ≤ s.setup.completionSize
        ∧ s.setup.completionSize ≤ 4096 := by decide +kernel
  obtain ⟨h1, h2, h3, h4, h5, h6⟩ := h state hs
  exact ⟨⟨rfl, rfl⟩, h1, h2, h3, h4, h5, h6, placeable_of_room _ ⟨(by decide : 0 < 32), (by decide : 0 < 32)⟩⟩

/-- The part with one allocation claim. -/
def claiming (bs : List Backlogged) : State :=
  (backlog bs).setClaims { Claims.reset with allocationClaims := 1 }

/-- A claim with no backlog entry, with an empty EAGER one, with one of 512 bytes and with a RENDEZVOUS one. -/
theorem test_AllocationsAllocate : (∀ b : Backlogged, b ∈ (claiming []).sending.backlog → False)
    ∧ ∀ b ∈ [backlogged .eager 0, backlogged .eager 512, backlogged .rendezvous 20000],
      let s := claiming [b]
      s.calm ∧ s.active = true ∧ 0 < s.claims.allocationClaims ∧ s.host.partState = .online
        ∧ s.sending.backlog = [] ++ b :: []
        ∧ ((s.sendHalf b.dest).nextSendSeq - (s.sendHalf b.dest).sendBase).toNat < 8
        ∧ (s.sendEntry 0).state = .free ∧ s.placeable .a := by
  refine ⟨fun b hb => by simp [claiming, backlog] at hb, fun b hb => ?_⟩
  have h : ∀ b ∈ [backlogged .eager 0, backlogged .eager 512, backlogged .rendezvous 20000],
      let s := claiming [b]
      s.host.partState = .online ∧ ((s.sendHalf b.dest).nextSendSeq - (s.sendHalf b.dest).sendBase).toNat < 8
        ∧ (s.sendEntry 0).state = .free := by decide +kernel
  obtain ⟨h1, h2, h3⟩ := h b hb
  exact ⟨⟨rfl, rfl⟩, rfl, (by decide : 0 < 1), h1, rfl, h2, h3,
    placeable_of_room _ ⟨(by decide : 0 < 32), (by decide : 0 < 32)⟩⟩

/-! ### Witnesses: Chapter 10 -/

/-- A STATS claim that has read some of its counters. -/
def counting (read : Nat) : State :=
  online.setCounters { online.counters with
    stats := some { cookie := 1, notify := true, clear := true, address := 0x6000, values := List.replicate read 0 } }

/-- The first, the second last and the last counter. -/
theorem test_StatsReadsCounters :
    (asking online).serves .stats 7 (record 9 (flags := 9) (target := 0x6000))
      ∧ (∀ k ∈ [0, 14, 15], (counting k).active = true ∧ ∃ c, (counting k).counters.stats = some c ∧ c.values.length = k)
      ∧ (counting 15).calm ∧ (counting 15).roomFor 1 := by
  refine ⟨serves_asking ?_, fun k _ => ⟨rfl, _, rfl, List.length_replicate⟩, ⟨rfl, rfl⟩, room_of ?_⟩ <;> decide +kernel

/-! ### Witnesses: Chapters 2 and 7 -/

/-- A frame that joins the last ingress buffer, one whose CRC fails, one that finds 16 in use, and one that leaves; lanes that
take no frame: DOWN after reset, DISABLED, in FAULT, and in TRAINING before the TRAIN is sent. -/
theorem test_FramesArriveAndLeave :
    let good := (answerFrame .ack).bytes
    let full := online.setLaneA { upLane with ingress := List.replicate 16 good }
    online.active = true ∧ (online.lane .a).receiving = true ∧ (online.lane .a).ingress.length < 16
      ∧ crcGood good = true ∧ crcGood (List.replicate 32 0) = false ∧ full.active = true
      ∧ (full.lane .a).receiving = true ∧ 16 ≤ (full.lane .a).ingress.length
      ∧ (online.lane .b).transmitter = some { source := .train, frame := { kind := .train } }
      ∧ (State.reset.lane .a).state = .down
      ∧ ∀ state ∈ [LaneState.disabled, .fault, .training],
        let r := (online.setLaneA { upLane with state, trainSent := false }).lane .a
        r.state ≠ .up ∧ (r.state ≠ .training ∨ r.trainSent = false) := by decide +kernel

/-- A part in which a producer waits for each lane. -/
theorem test_FaultClearsLane : ∃ s : State, s.active = true ∧ s.claims.waiting = [[.placeOn .a (answerFrame .ack)],
    [.placeOn .b (answerFrame .ack), .unlock [.matchUnit]]] :=
  ⟨online.setClaims { Claims.reset with waiting := _ }, rfl, rfl⟩

/-- A frame of no kind, a DATA with a byte too few, and a DATA for another node. -/
theorem test_LaneChecksDrop :
    let oldest (bytes : Bytes) : State := online.setLaneA { upLane with ingress := [bytes] }
    let none' := List.replicate 32 (0 : Byte)
    let short := { dataFrame with payload := List.replicate 255 7 }
    let other := { dataFrame with dest := 6 }
    (oldest none').calm ∧ (oldest none').active = true ∧ ((oldest none').lane .a).busy = false
      ∧ ((oldest none').lane .a).ingress.head? = some none' ∧ parseFrame none' = none
      ∧ parseFrame short.bytes = some short ∧ short.command .a = .data .a
      ∧ short.wellFormed short.bytes.length = false ∧ parseFrame other.bytes = some other
      ∧ other.wellFormed other.bytes.length = true ∧ other.dest ≠ (oldest other.bytes).setup.nodeId := by
  refine ⟨⟨rfl, rfl⟩, rfl, rfl, rfl, ?_, ?_, rfl, ?_⟩ <;> decide +kernel

/-- A frame of the switch. -/
def switchFrame (kind : FrameKind) (total : BitVec 32) : Frame := { kind, dest := 5, total }

/-- A TRAIN_ACK, a TRAIN, and a CREDIT of as many credits as are outstanding and of one more, on a lane that is UP; and
a TRAIN_ACK on a lane in TRAINING. -/
theorem test_LaneFramesActOnLane :
    let training := framed (online.setLaneA { upLane with state := .training }) (switchFrame .trainAck 64)
    (framed online (switchFrame .trainAck 64)).calm
      ∧ (framed online (switchFrame .trainAck 64)).accepts .a (switchFrame .trainAck 64)
      ∧ (framed online (switchFrame .train 16)).accepts .a (switchFrame .train 16)
      ∧ (framed online (switchFrame .credit 5)).accepts .a (switchFrame .credit 5)
      ∧ (switchFrame .credit 5).total.toNat ≤ (online.lane .a).creditLimit - (online.lane .a).credits
      ∧ (framed online (switchFrame .credit 6)).accepts .a (switchFrame .credit 6)
      ∧ training.calm ∧ training.accepts .a (switchFrame .trainAck 64)
      ∧ ((training.handling .a).lane .a).state = .training ∧ ((training.handling .a).lane .a).trainSent = true := by
  refine ⟨⟨rfl, rfl⟩, accepts_framed ?_, accepts_framed ?_, accepts_framed ?_, ?_, accepts_framed ?_, ⟨rfl, rfl⟩,
    accepts_framed ?_, ?_⟩ <;> decide +kernel

/-- Timers that run out at this very tick. -/
theorem test_LaneTimersAct :
    let fault := online.setLaneA { upLane with state := .fault, holdOffTimer := some 1000 }
    let training := online.setLaneA { upLane with state := .training, trainingTimer := some 1000 }
    fault.active = true ∧ (fault.lane .a).state = .fault ∧ (fault.lane .a).holdOffTimer = some 1000
      ∧ (1000 : Tick) ≤ fault.host.tick ∧ training.active = true ∧ (training.lane .a).state = .training
      ∧ (training.lane .a).trainingTimer = some 1000 ∧ (online.lane .a).state = .up ∧ (fault.lane .a).state ≠ .up := by decide +kernel

/-- The longest payload. -/
theorem test_FramesReadBack : dataFrame.payload.length ≤ 256 := by decide +kernel

/-! ### Witnesses: Chapter 5 -/

/-- The part in which an opening DATA waits for a spill buffer, with its entry taken. -/
def awaitingSpill : State :=
  let s := (framed online dataFrame).handling .a
  ((s.setMatching { s.matching with free := 1023, unexpected := 1 }).setSpill
    { SpillCache.reset with fetch := .reading 7 }).setClaims
    { Claims.reset with waiting := [[.spillWait .a dataFrame false false]], locks := [.matchUnit, .record 12] }

/-- A slot of the Spill Ring. -/
def spillSlot (address last : Nat) : Bytes := leBytes 8 address ++ leBytes 4 0x70 ++ leBytes 4 last

/-- A good slot and two bad ones; no opening that waits, and one; what becomes of one is in test_SpillFetchReturns_waiting. -/
theorem test_SpillFetchReturns :
    let s := online.setSpill { SpillCache.reset with fetch := .reading 7 }
    let bad (b : Bytes) : Prop :=
      (BitVec.ofNat 64 (leField b 0 8)).toNat % 256 ≠ 0 ∨ ∃ x ∈ slice b 12 4, x ≠ 0
    s.calm ∧ s.roomFor 1 ∧ (awaitingSpill.host.partState = .online
      ∧ ∃ acts ∈ awaitingSpill.claims.waiting, ∃ l f a b, acts.head? = some (.spillWait l f a b))
      ∧ s.awaitsSpill 7 = true ∧ awaitingSpill.awaitsSpill 7 = true ∧ (spillSlot 0x200000 0).length = 16
      ∧ ¬ bad (spillSlot 0x200000 0) ∧ bad (spillSlot 0x200080 0) ∧ bad (spillSlot 0x200000 0x1000000) := by
  refine ⟨⟨rfl, rfl⟩, room_of ?_, ⟨rfl, _, List.mem_singleton.2 rfl, _, _, _, _, rfl⟩, ?_⟩ <;> decide +kernel

/-- A BOUND entry that waits for a drain, at the head of the Drain Queue. -/
def draining (length : Nat) : State :=
  (holding (.bound receive { stored with length } .awaitDrain)).setMover { DataMover.reset with queue := [0] }

/-- A drain of 900 bytes and one of none. -/
theorem test_DrainsStart : ∀ length ∈ [900, 0],
    let s := draining length
    s.calm ∧ s.host.partState = .online ∧ s.mover.queue = 0 :: [] ∧ s.slot 0 = none
      ∧ s.matching.find 0 = some { id := 0, domain := 2, body := .bound receive { stored with length } .awaitDrain }
      ∧ s.roomFor 2 := by
  intro length h
  have h' : ∀ length ∈ [900, 0],
      let s := draining length
      s.host.partState = .online ∧ s.mover.queue = [0] ∧ s.slot 0 = none
        ∧ s.matching.find 0 = some { id := 0, domain := 2, body := .bound receive { stored with length } .awaitDrain }
        ∧ s.ring.chq = [] ∧ occupancy s.ring.completionTail s.ring.cqHead + 2 ≤ s.setup.completionSize
        ∧ s.setup.completionSize ≤ 4096 := by decide +kernel
  obtain ⟨h1, h2, h3, h4, h5, h6, h7⟩ := h' length h
  exact ⟨⟨rfl, rfl⟩, h1, h2, h3, h4, h5, h6, h7⟩

/-- The drain of 900 bytes (11.6) with these chunks read and these outstanding. -/
def copying (nextChunk : Nat) (outstanding : List ChunkRead) : Drain :=
  { entry := 0, address := 0x200000, segments := receive.segments, length := 900, nextChunk, outstanding
    failed := false }

/-- The first chunk comes back with three left, and the last with none; or either is answered with an error. -/
theorem test_DrainsAdvance : ∀ d ∈ [copying 1 [{ tag := 7, chunk := 0 }], copying 4 [{ tag := 7, chunk := 3 }]],
    let s := (draining 900).setSlot 0 (some d)
    s.calm ∧ s.active = true ∧ s.chunkSlot 7 = some 0 ∧ s.slot 0 = some d ∧ s.roomFor 2
      ∧ ∃ j, d.chunkOf 7 = some j ∧ (List.replicate (d.chunkLength j) (0 : Byte)).length = d.chunkLength j := by
  intro d h
  have h' : ∀ d ∈ [copying 1 [{ tag := 7, chunk := 0 }], copying 4 [{ tag := 7, chunk := 3 }]],
      let s := (draining 900).setSlot 0 (some d)
      s.active = true ∧ s.chunkSlot 7 = some 0 ∧ s.slot 0 = some d ∧ s.ring.chq = []
        ∧ occupancy s.ring.completionTail s.ring.cqHead + 2 ≤ s.setup.completionSize
        ∧ s.setup.completionSize ≤ 4096 ∧ (d.chunkOf 7).isSome = true := by decide +kernel
  obtain ⟨h1, h2, h3, h4, h5, h6, h7⟩ := h' d h
  obtain ⟨j, hj⟩ := Option.isSome_iff_exists.1 h7
  exact ⟨⟨rfl, rfl⟩, h1, h2, h3, ⟨h4, h5, h6⟩, j, hj, List.length_replicate⟩

/-! ### Witnesses: Chapter 3 -/

/-- The ANNOUNCE at another sequence number. -/
def announceAt (seq : Seq) : Frame := { announceFrame with seq }

/-- The positions at the bounds of R60 and R61: behind by 32768, opened at 1, beyond the window by 8 and by 32767. -/
theorem test_StrayFramesDropped :
    let known := online.setPeer 12 { online.peer 12 with ahead := 1 }
    (framed online (announceAt 32798)).carries .a (announceAt 32798)
      ∧ ((32798 : Seq) - (online.peer 12).nextSeq).toNat = 32768
      ∧ (framed known (announceAt 31)).carries .a (announceAt 31) ∧ (known.peer 12).ahead.getLsbD 0 = true
      ∧ (framed online (announceAt 38)).carries .a (announceAt 38)
      ∧ (framed online (announceAt 32797)).carries .a (announceAt 32797)
      ∧ ((32797 : Seq) - (online.peer 12).nextSeq).toNat = 32767 ∧ (online.peer 12).known = true
      ∧ announceFrame.isMessage ∧ announceFrame.windowBase = (online.peer 12).nextSeq
      ∧ ∀ q : Seq, online.findFilling 12 9 q = none := by
  refine ⟨carries_framed ?_, ?_, carries_framed ?_, ?_, carries_framed ?_, carries_framed ?_, ?_, ?_, Or.inr rfl, ?_,
    fun _ => by rfl⟩ <;> decide +kernel

/-- A first frame of node 13; frames of node 12 that are older by 1 and by 128 epochs; and newer ones by 1 and by 127, of a
part with entries BOUND, HELD and live. -/
theorem test_StrayFramesDropped_epochs :
    let first : Frame := { announceFrame with source := 13 }
    let at' (e : BitVec 8) : Frame := { announceFrame with epoch := e }
    let busy := (restarting.setSendEntry 3 (sendEntry .waitAck .rendezvous 600)).setSendHalf 12
      { nextSendSeq := 51, sendBase := 50, inFlight := 1 }
    (framed online first).calm ∧ (framed online first).accepts .a first ∧ (online.peer 13).epoch = none
      ∧ (framed online (at' 8)).accepts .a (at' 8) ∧ (framed online (at' 137)).accepts .a (at' 137)
      ∧ (framed busy (at' 10)).accepts .a (at' 10) ∧ (framed busy (at' 136)).accepts .a (at' 136) ∧ busy.calm
      ∧ (busy.peer 12).epoch = some 9 ∧ ((8 : BitVec 8) - 9).toNat = 255 ∧ ((137 : BitVec 8) - 9).toNat = 128
      ∧ ((10 : BitVec 8) - 9).toNat = 1 ∧ ((136 : BitVec 8) - 9).toNat = 127
      ∧ announceFrame.kind ∉ [FrameKind.train, .trainAck, .credit]
      ∧ (∀ e ∈ [10, 136],
        let v := busy.setPeer 12 { PeerRecord.reset with epoch := some e }
        (v.restartMatch 12).2.length + (v.restartSend 12).2.length ≤ 5) ∧ busy.roomFor 5 := by
  refine ⟨⟨rfl, rfl⟩, accepts_framed ?_, ?_, accepts_framed ?_, accepts_framed ?_, accepts_framed ?_, accepts_framed ?_,
    ⟨rfl, rfl⟩, ?_, ?_, ?_, ?_, ?_, ?_, ?_, room_of ?_⟩ <;> decide +kernel

/-- A record that is UNKNOWN; and window bases ahead by 1 and by 32767: with the two positions behind it HELD, with none
opened, and with a stray frame at an opened position. -/
theorem test_StrayFramesDropped_bases :
    let unknown := online.setPeer 12 { online.peer 12 with known := false }
    let opened := online.setPeer 12 { online.peer 12 with ahead := 4 }
    let at' (seq base : Seq) : Frame := { announceFrame with seq, windowBase := base }
    (framed unknown announceFrame).carries .a announceFrame ∧ (unknown.peer 12).known = false
      ∧ (framed populated (at' 30 31)).carries .a (at' 30 31) ∧ (populated.peer 12).known = true
      ∧ ((31 : Seq) - (populated.peer 12).nextSeq).toNat = 1 ∧ (populated.peer 12).opensRun 1 2
      ∧ (framed online (at' 30 32797)).carries .a (at' 30 32797)
      ∧ ((32797 : Seq) - (online.peer 12).nextSeq).toNat = 32767 ∧ (online.peer 12).opensRun 32767 0
      ∧ (framed opened (at' 33 31)).carries .a (at' 33 31) ∧ (opened.peer 12).opensRun 1 0
      ∧ ((opened.peer 12).ahead >>> 1).getLsbD 1 = true ∧ ((30 : Seq) - 33).toNat ≥ 32768
      ∧ populated.findFilling 12 9 30 = none := by
  refine ⟨carries_framed ?_, ?_, carries_framed ?_, ?_, ?_, ⟨?_, ?_⟩, carries_framed ?_, ?_, ⟨?_, ?_⟩, carries_framed ?_,
    ⟨?_, ?_⟩, ?_⟩ <;> decide +kernel

/-- Window bases ahead of frames that then go on: to the position the base moves to, past the two HELD ones behind it; to one
ahead of that; to the context that message 32 fills; and beyond the window. A DATA of the first kind meets a cached spill
buffer. -/
theorem test_StrayFramesDropped_on :
    let cached := populated.setSpill { SpillCache.reset with entries := [{ address := 0x200000, token := 0x70 }] }
    let fill : Frame := { dataFrame with seq := 32, windowBase := 31 }
    let opens : Frame := { dataFrame with seq := 33, windowBase := 31 }
    populated.storeSound ∧ cached.storeSound ∧ (populated.peer 12).opensRun 1 2
      ∧ (∀ q ∈ [(33 : Seq), 40, 41], let f : Frame := { announceAt q with windowBase := 31 }
        (framed populated f).carries .a f ∧ ((framed populated f).handling .a).placeable .a)
      ∧ (framed populated fill).carries .a fill ∧ populated.findFilling 12 9 32 = some 0
      ∧ (framed cached opens).carries .a opens ∧ ((framed cached opens).handling .a).placeable .a
      ∧ cached.spill.entries ≠ [] := by
  refine ⟨populated_sound, storeSound_setSpill _ populated_sound, ⟨?_, ?_⟩, ?_, carries_framed ?_, ?_, carries_framed ?_, placeable_of_room _ ?_, ?_⟩
  case refine_3 =>
    simp only [List.forall_mem_cons]
    refine ⟨⟨carries_framed ?_, placeable_of_room _ ?_⟩, ⟨carries_framed ?_, placeable_of_room _ ?_⟩,
      ⟨carries_framed ?_, placeable_of_room _ ?_⟩, by simp⟩ <;> decide +kernel
  all_goals decide +kernel

/-- The hypotheses that an opening at `next_seq` shares. -/
theorem test_opening : (framed online announceFrame).carries .a announceFrame
    ∧ (framed online dataFrame).carries .a dataFrame ∧ (online.peer 12).known = true
    ∧ announceFrame.windowBase = (online.peer 12).nextSeq ∧ announceFrame.seq = (online.peer 12).nextSeq
    ∧ (online.peer 12).opensRun 1 0 ∧ (populated.peer 12).opensRun 1 2 ∧ (online.peer 12).ahead = 0 ∧ online.findFilling 12 9 30 = none ∧ online.host.partState = .online
    ∧ (online.domain (domainIndex announceFrame.domain)).state = .opened ∧ announceFrame.isMessage := by
  refine ⟨carries_framed ?_, carries_framed ?_, ?_, ?_, ?_, ⟨?_, ?_⟩, ⟨?_, ?_⟩, ?_, ?_, ?_, ?_, Or.inr rfl⟩
    <;> decide +kernel

/-- An opening in STOPPING, one of a CLOSED domain, and a DATA one byte longer than a spill buffer. -/
theorem test_OpeningsRefused :
    let stopping := framed (inState .stopping) announceFrame
    let closed : Frame := { announceFrame with domain := 3 }
    let long : Frame := { dataFrame with total := 1025 }
    stopping.carries .a announceFrame ∧ stopping.host.partState ≠ .online ∧ (stopping.handling .a).placeable .a
      ∧ (framed online closed).carries .a closed ∧ (online.domain (domainIndex closed.domain)).state ≠ .opened
      ∧ (framed online long).carries .a long
      ∧ (framed online long).matching.searchPrl 2 (openedMessage .a long) = none
      ∧ (framed online long).setup.spillSize < long.total.toNat := by
  refine ⟨carries_framed ?_, ?_, placeable_of_room _ ?_, carries_framed ?_, ?_, carries_framed ?_, ?_⟩ <;> decide
    +kernel

/-- The populated part with its gap timer not armed. -/
def disarmed : State := populated.setPeer 12 { populated.peer 12 with gapTimer := none }

/-- Positions that are open: the current one, and those ahead by 3 and by 7 of a record with two before them opened, its gap
timer armed or not. -/
theorem test_opens : (online.peer 12).opens 30 ∧ ((populated.peer 12).opens 33 ∧ (populated.peer 12).opens 37)
    ∧ (disarmed.peer 12).opens 33 ∧ (disarmed.peer 12).opens 37 := by
  refine ⟨Or.inl ?_, ⟨Or.inr ?_, Or.inr ?_⟩, Or.inr ?_, Or.inr ?_⟩ <;> decide +kernel

/-- That part in STOPPING. -/
def refusing : State := disarmed.setHost (inState .stopping).host

/-- An ANNOUNCE of a domain that is CLOSED. -/
def closedAt (seq : Seq) : Frame := { announceAt seq with domain := 3 }

/-- A DATA one byte longer than a spill buffer. -/
def longAt (seq : Seq) : Frame := { dataFrame with seq, total := 1025 }

/-- Openings ahead in STOPPING, of a CLOSED domain, and one byte too long; the rest is test_opens and as for the current
ones. -/
theorem test_OpeningsRefused_ahead : (framed refusing (announceAt 33)).carries .a (announceAt 33)
    ∧ ((framed refusing (announceAt 33)).handling .a).placeable .a
    ∧ (framed disarmed (closedAt 33)).carries .a (closedAt 33)
    ∧ (framed populated (longAt 37)).carries .a (longAt 37) ∧ populated.setup.spillSize < (longAt 37).total.toNat
    ∧ populated.findFilling 12 9 33 = none ∧ populated.findFilling 12 9 37 = none := by
  refine ⟨carries_framed ?_, placeable_of_room _ ?_, carries_framed ?_, carries_framed ?_, ?_⟩
  all_goals decide +kernel

/-- The part with every context in use, for node 13. -/
def noContext (s : State) : State :=
  s.setContexts
    { table := Vector.replicate 64 { generation := 1, body := .filling { gathering with source := 13 } 0x10 2 0 }
      age := List.finRange 64 }

/-- An opening that finds the pool empty, one at the unexpected limit, a DATA that finds no spill buffer, and one that finds
no context, with a spill buffer taken and with a receive matched; ones ahead by 7 that find no entry, no spill buffer and no
context. The rest is test_opening and test_OpeningsRefused_ahead. -/
theorem test_OpeningsRefused_exhausted :
    let data (s : State) := framed s dataFrame
    let limit := online.setMatching { online.matching with unexpected := 256 }
    let cached := noContext (online.setSpill { SpillCache.reset with entries := [{ address := 0x200000, token := 7 }] })
    let matched := noContext (holding (.posted receive none))
    let ahead : Frame := { dataFrame with seq := 37 }
    (data noPool).carries .a dataFrame ∧ noPool.matching.free = 0 ∧ (data limit).carries .a dataFrame
      ∧ limit.setup.unexpectedLimit ≤ limit.matching.unexpected ∧ (data online).carries .a dataFrame
      ∧ online.matching.searchPrl 2 (openedMessage .a dataFrame) = none ∧ dataFrame.total.toNat ≤ online.setup.spillSize
      ∧ online.spill.entries = [] ∧ online.spill.fetch = .noFetch ∧ online.ring.srTail = online.ring.spillHead
      ∧ (data cached).carries .a dataFrame ∧ cached.spill.entries ≠ [] ∧ cached.spill.loan = none
      ∧ (∀ c, (cached.context c).body ≠ .free) ∧ cached.findFilling 12 9 30 = none
      ∧ (data matched).carries .a dataFrame ∧ matched.matching.searchPrl 2 (openedMessage .a dataFrame) ≠ none
      ∧ (∀ c, (matched.context c).body ≠ .free)
      ∧ ∀ s ∈ [noPool, online, cached], (framed s ahead).carries .a ahead ∧ s.findFilling 12 9 37 = none := by
  refine ⟨carries_framed ?_, ?_, carries_framed ?_, ?_, carries_framed ?_, ?_, ?_, ?_, ?_, ?_, carries_framed ?_, ?_, ?_,
    ?_, ?_, carries_framed ?_, ?_, ?_, ?_⟩
  case refine_19 =>
    simp only [List.forall_mem_cons]
    refine ⟨⟨carries_framed ?_, ?_⟩, ⟨carries_framed ?_, ?_⟩, ⟨carries_framed ?_, ?_⟩, by simp⟩ <;> decide +kernel
  all_goals decide +kernel

/-- An ANNOUNCE that matches a POSTED receive, with two HELD positions behind it and with none, and one that is stored; one
ahead by 1, and by 7 with a position already HELD between; the rest is test_opening. -/
theorem test_AnnounceOpens :
    let s := framed (holding (.posted receive none)) announceFrame
    let ahead := disarmed
    s.carries .a announceFrame ∧ s.matching.searchPrl 2 announced = some (0, receive)
      ∧ (framed populated announceFrame).carries .a announceFrame
      ∧ populated.matching.searchPrl 2 announced = some (0, receive)
      ∧ (framed online announceFrame).matching.searchPrl 2 announced = none
      ∧ online.matching.unexpected < online.setup.unexpectedLimit ∧ online.matching.free ≠ 0
      ∧ (framed online (announceAt 31)).carries .a (announceAt 31) ∧ (online.peer 12).ahead.getLsbD 0 = false
      ∧ (framed ahead (announceAt 37)).carries .a (announceAt 37) ∧ (ahead.peer 12).ahead.getLsbD 6 = false
      ∧ ahead.findFilling 12 9 37 = none ∧ ((37 : Seq) - (ahead.peer 12).nextSeq).toNat = 7
      ∧ ahead.matching.unexpected < ahead.setup.unexpectedLimit ∧ ahead.matching.free ≠ 0 := by
  refine ⟨carries_framed ?_, ?_, carries_framed ?_, ?_, ?_, ?_, ?_, carries_framed ?_, ?_, carries_framed ?_, ?_⟩
    <;> decide +kernel

/-- The part with a spill buffer in its cache. -/
def cachedSpill : State :=
  online.setSpill { SpillCache.reset with entries := [{ address := 0x200000, token := 0x70 }] }

/-- A DATA that opens a message and matches a POSTED receive; ones that match none, with a spill buffer cached, with a fetch
in flight, and with one to start; and an opening that has its buffer on loan. The rest is test_opening. -/
theorem test_DataOpens :
    let s := framed (holding (.posted receive none)) dataFrame
    let fetching := online.setSpill { SpillCache.reset with fetch := .reading 7 }
    let offered := online.setRing { online.ring with srTail := 1 }
    let lent := awaitingSpill.setSpill { SpillCache.reset with loan := some { address := 0x200000, token := 0x70 } }
    s.carries .a dataFrame ∧ s.matching.searchPrl 2 { announced with mode := .eager, handle := 0 } = some (0, receive)
      ∧ (s.context 0).body = .free ∧ (framed cachedSpill dataFrame).carries .a dataFrame
      ∧ (framed cachedSpill dataFrame).matching.searchPrl 2 (openedMessage .a dataFrame) = none
      ∧ (framed fetching dataFrame).carries .a dataFrame ∧ fetching.spill.entries = [] ∧ fetching.spill.fetch ≠ .noFetch
      ∧ (framed offered dataFrame).carries .a dataFrame ∧ offered.spill.entries = [] ∧ offered.spill.fetch = .noFetch
      ∧ offered.ring.srTail ≠ offered.ring.spillHead ∧ 256 < dataFrame.total.toNat
      ∧ dataFrame.total.toNat ≤ online.setup.spillSize ∧ lent.host.partState = .online
      ∧ lent.claims.waiting = [[.spillWait .a dataFrame false false]] ∧ lent.claims.locks = [.matchUnit, .record 12]
      ∧ dataFrame.seq = (lent.peer 12).nextSeq ∧ (lent.peer 12).ahead = 0 ∧ (lent.context 0).body = .free := by
  refine ⟨carries_framed ?_, ?_, ?_, carries_framed ?_, ?_, carries_framed ?_, ?_, ?_, carries_framed ?_, ?_⟩
    <;> decide +kernel

/-- A DATA of one piece at this position, with the window base as far behind `next_seq` as it can be. -/
def onePiece (seq : Seq) : Frame :=
  { dataFrame with seq, windowBase := 32798, total := 200, payloadLength := 200, offset := 0, payload := List.replicate 200 7 }

/-- The populated part with a spill buffer in its cache. -/
def cachedPopulated : State := populated.setSpill cachedSpill.spill

/-- Openings of one piece with the window base behind, in sound parts: one that matches a POSTED receive with two HELD
positions behind it, and ones ahead, with a spill buffer cached. Context 1 is the lowest that is FREE. -/
theorem test_DataOpens_populated : populated.storeSound ∧ cachedPopulated.storeSound
    ∧ (framed populated (onePiece 30)).carries .a (onePiece 30)
    ∧ populated.matching.searchPrl 2 { announced with length := 200, mode := .eager, handle := 0 } = some (0, receive)
    ∧ (populated.context 1).body = .free ∧ (∀ k, k < 1 → (populated.context k).body ≠ .free)
    ∧ 32768 ≤ ((32798 : Seq) - (populated.peer 12).nextSeq).toNat
    ∧ (framed cachedPopulated (onePiece 33)).carries .a (onePiece 33)
    ∧ (framed cachedPopulated (onePiece 37)).carries .a (onePiece 37)
    ∧ ((framed populated (onePiece 30)).handling .a).placeable .a ∧ (framed populated (onePiece 30)).roomFor 2
    ∧ ((framed cachedPopulated (onePiece 33)).handling .a).placeable .a ∧ (framed cachedPopulated (onePiece 33)).roomFor 2
    ∧ cachedPopulated.spill.entries ≠ [] ∧ cachedPopulated.spill.loan = none := by
  refine ⟨populated_sound, storeSound_setSpill _ populated_sound, carries_framed ?_, ?_, ?_, ?_, ?_, carries_framed ?_,
    carries_framed ?_, placeable_of_room _ ?_, room_of ?_, placeable_of_room _ ?_, room_of ?_, ?_⟩
  all_goals decide +kernel

/-- The populated part in which an ahead opening of one piece, which may have moved `next_seq` first, has its buffer on
loan. -/
def lentAhead (advanced : Bool) : State :=
  let s := (framed populated (onePiece 33)).setSpill
    { SpillCache.reset with loan := some { address := 0x200000, token := 0x70 } }
  (s.setMatching { s.matching with free := s.matching.free - 1, unexpected := s.matching.unexpected + 1 }).setClaims
    { Claims.reset with waiting := [[.spillWait .a (onePiece 33) true advanced]], locks := [.matchUnit, .record 12] }

/-- It is sound, and goes on; and an opening ahead that waits for a fetch. -/
theorem test_DataOpens_ahead : (∀ advanced, (lentAhead advanced).storeSound) ∧ (lentAhead true).host.partState = .online
    ∧ ((lentAhead true).context 1).body = .free ∧ (framed populated (onePiece 33)).carries .a (onePiece 33)
    ∧ populated.spill.entries = [] ∧ populated.spill.loan = none := by
  refine ⟨fun advanced => storeSound_waiting _ (storeSound_setSpill _ (storeSound_framed _ populated_sound)) ?_ ?_ ?_ ?_ ?_,
    ?_, ?_, carries_framed ?_, ?_⟩
  all_goals decide +kernel

/-- Openings that wait, at `next_seq` and ahead: out of ONLINE, with nothing in the Spill Ring, with a slot in it, and with a
buffer on loan but no context. -/
theorem test_SpillFetchReturns_waiting :
    let lost (s : State) : State := (s.setSpill SpillCache.reset).setHost (inState .stopping).host
    (∀ s ∈ [awaitingSpill, lentAhead false, lentAhead true], (lost s).host.partState ≠ .online
        ∧ (lost s).spill.loan = none ∧ (lost s).spill.fetch = .noFetch
        ∧ (lost s).egress.laneA.queue.length < 32 ∧ (lost s).egress.laneB.queue.length < 32
        ∧ s.claims.locks = [.matchUnit, .record 12] ∧ s.host.partState = .online ∧ s.ring.srTail = s.ring.spillHead)
      ∧ (lentAhead true).claims.waiting = [[.spillWait .a (onePiece 33) true true]]
      ∧ ((lentAhead true).setRing { online.ring with srTail := 1 }).ring.srTail ≠ online.ring.spillHead
      ∧ (noContext (lentAhead true)).spill.loan = some { address := 0x200000, token := 0x70 }
      ∧ ∀ c, ((noContext (lentAhead true)).context c).body ≠ .free := by decide +kernel

/-! ### Witnesses: Chapter 4 -/

/-- A frame that disagrees with its context, one whose piece has been taken, and one whose piece is new and not the
last. -/
theorem test_FragmentsFill :
    let s := withContext (filling 1)
    let other : Frame := { dataFrame with tag := 0x11 }
    let first : Frame := { dataFrame with offset := 0 }
    (framed s other).carries .a other ∧ (framed s first).carries .a first ∧ (framed s dataFrame).carries .a dataFrame
      ∧ dataFrame.isMessage ∧ (s.peer 12).known = true ∧ dataFrame.windowBase = (s.peer 12).nextSeq
      ∧ s.findFilling 12 9 30 = some 0 ∧ (s.context 0).body = .filling gathering 0x10 2 1
      ∧ mismatch other gathering 0x10 2 = some 1 ∧ mismatch first gathering 0x10 2 = none
      ∧ mismatch dataFrame gathering 0x10 2 = none ∧ (1 : BitVec 64).getLsbD 0 = true
      ∧ (1 : BitVec 64).getLsbD (dataFrame.offset.toNat / 256) = false
      ∧ (1 : BitVec 64) ||| BitVec.twoPow 64 (dataFrame.offset.toNat / 256) ≠ fullBitmap gathering.length := by
  refine ⟨carries_framed ?_, carries_framed ?_, carries_framed ?_, Or.inl rfl, ?_⟩ <;> decide +kernel

/-- The last of the three pieces. -/
theorem test_FragmentsComplete :
    let s := withContext (filling 5)
    (framed s dataFrame).carries .a dataFrame ∧ s.findFilling 12 9 30 = some 0
      ∧ (s.context 0).body = .filling gathering 0x10 2 5 ∧ mismatch dataFrame gathering 0x10 2 = none
      ∧ (5 : BitVec 64).getLsbD (dataFrame.offset.toNat / 256) = false
      ∧ (5 : BitVec 64) ||| BitVec.twoPow 64 (dataFrame.offset.toNat / 256) = fullBitmap gathering.length
      ∧ ((framed s dataFrame).handling .a).placeable .a ∧ (framed s dataFrame).roomFor 2 := by
  refine ⟨carries_framed ?_, ?_, ?_, ?_, ?_, ?_, placeable_of_room _ ?_, room_of ?_⟩ <;> decide +kernel

/-- A PDATA of 600 bytes for context 0 in generation 1. -/
def pdataFrame (offset length : Nat) : Frame :=
  { answerFrame .pdata with
    payloadLength := BitVec.ofNat 16 length, total := 600, offset := BitVec.ofNat 32 offset, contextRef := 0x40
    payload := List.replicate length 7 }

/-- The part pulling the message, up to an offset. -/
def pulling (next : Nat) : State := withContext (.pulling gathering 600 next)

/-- A PDATA of another total length, and one above the next offset. -/
theorem test_PulledDataFills_lost :
    let other : Frame := { pdataFrame 0 256 with total := 599 }
    (framed (pulling 0) other).carries .a other ∧ (pulling 0).livePull other = some (0, gathering, 600, 0)
      ∧ (framed (pulling 0) (pdataFrame 256 256)).carries .a (pdataFrame 256 256)
      ∧ (pulling 0).livePull (pdataFrame 256 256) = some (0, gathering, 600, 0)
      ∧ ((framed (pulling 0) (pdataFrame 256 256)).handling .a).placeable .a
      ∧ (framed (pulling 0) (pdataFrame 256 256)).roomFor 2 := by
  refine ⟨carries_framed ?_, ?_, carries_framed ?_, ?_, placeable_of_room _ ?_, room_of ?_⟩ <;> decide +kernel

/-- A PDATA of no context, one below the next offset, one at it, and the last. -/
theorem test_PulledDataFills :
    (framed online (pdataFrame 0 256)).carries .a (pdataFrame 0 256) ∧ online.livePull (pdataFrame 0 256) = none
      ∧ (framed (pulling 256) (pdataFrame 0 256)).carries .a (pdataFrame 0 256)
      ∧ (pulling 256).livePull (pdataFrame 0 256) = some (0, gathering, 600, 256)
      ∧ (framed (pulling 0) (pdataFrame 0 256)).carries .a (pdataFrame 0 256)
      ∧ (pulling 0).livePull (pdataFrame 0 256) = some (0, gathering, 600, 0)
      ∧ (framed (pulling 512) (pdataFrame 512 88)).carries .a (pdataFrame 512 88)
      ∧ (pulling 512).livePull (pdataFrame 512 88) = some (0, gathering, 600, 512)
      ∧ 512 + (pdataFrame 512 88).payloadLength.toNat = 600
      ∧ ((framed (pulling 512) (pdataFrame 512 88)).handling .a).placeable .a
      ∧ (framed (pulling 512) (pdataFrame 512 88)).roomFor 2 ∧ gathering.target = .segments receive.segments := by
  refine ⟨carries_framed ?_, ?_, carries_framed ?_, ?_, carries_framed ?_, ?_, carries_framed ?_, ?_, ?_,
    placeable_of_room _ ?_, room_of ?_, ?_⟩ <;> decide +kernel

/-- An ABORT toward the receiver, of the largest reason, for a context and for none. -/
theorem test_AbortsEndPulls :
    let f : Frame := { answerFrame .abort with flags := 2, reason := 5, contextRef := 0x40 }
    (framed (pulling 0) f).carries .a f ∧ f.toReceiver = true
      ∧ (framed (pulling 0) f).livePull f = some (0, gathering, 600, 0) ∧ (framed (pulling 0) f).roomFor 2
      ∧ (framed online f).carries .a f ∧ (framed online f).livePull f = none := by
  refine ⟨carries_framed ?_, ?_, ?_, room_of ?_, carries_framed ?_, ?_⟩ <;> decide +kernel

/-- A RETRACT that finds a READY and a HELD entry, and one that finds none. -/
theorem test_RetractsRemove :
    let f : Frame := { answerFrame .retract with seq := 30, handle := 99 }
    let ready := framed (holding (.ready announced)) f
    let held := framed (holding (.held announced)) f
    ready.carries .a f ∧ ready.matching.findAnnounced 12 9 30 = some { id := 0, domain := 2, body := .ready announced }
      ∧ (ready.handling .a).placeable .a ∧ held.carries .a f
      ∧ held.matching.findAnnounced 12 9 30 = some { id := 0, domain := 2, body := .held announced }
      ∧ (framed online f).carries .a f ∧ (framed online f).matching.findAnnounced 12 9 30 = none := by
  refine ⟨carries_framed ?_, ?_, placeable_of_room _ ?_, carries_framed ?_, ?_, carries_framed ?_, ?_⟩ <;> decide
    +kernel

/-- One whose ACK finds the queue full. -/
theorem test_RetractsRemove_full :
    let f : Frame := { answerFrame .retract with seq := 30, handle := 99 }
    let s := holding (.ready announced)
    let full := framed (s.setLaneA { s.laneA with queue := List.replicate 32 (answerFrame .ack) }) f
    full.carries .a f ∧ full.matching.findAnnounced 12 9 30 = some { id := 0, domain := 2, body := .ready announced }
      ∧ (full.handling .a).chooseLane .a = some .a ∧ 32 ≤ ((full.handling .a).lane .a).queue.length := by
  refine ⟨carries_framed ?_, ?_⟩ <;> decide +kernel

/-- The part with one pull service claim and a Pull Queue of one message of this length. -/
def serving (length : Nat) : State :=
  let s := holding (.bound receive { announced with length } .awaitContext)
  (s.setMatching { s.matching with pullQueue := [0] }).setClaims { Claims.reset with pullClaims := 1 }

/-- Every context in use. -/
def allUsed : State :=
  (serving 600).setContexts
    { table := Vector.replicate 64 { generation := 1, body := filling 0 }, age := List.finRange 64 }

/-- A queue that is empty, a head of no bytes, a head with a FREE context and one with none. -/
theorem test_PullServiceServes :
    let empty := online.setClaims { Claims.reset with pullClaims := 1 }
    empty.calm ∧ empty.active = true ∧ 0 < empty.claims.pullClaims ∧ empty.matching.pullQueue = []
      ∧ (serving 0).calm ∧ (serving 0).host.partState = .online ∧ (serving 0).matching.pullQueue = 0 :: []
      ∧ (serving 0).matching.find 0
        = some { id := 0, domain := 2, body := .bound receive { announced with length := 0 } .awaitContext }
      ∧ (serving 0).placeable .a ∧ (serving 0).roomFor 2 ∧ (serving 600).calm
      ∧ (serving 600).matching.find 0 = some { id := 0, domain := 2, body := .bound receive announced .awaitContext }
      ∧ ((serving 600).context 0).body = .free ∧ min announced.length receive.total ≠ 0 ∧ allUsed.calm
      ∧ ∀ c, (allUsed.context c).body ≠ .free := by
  refine ⟨⟨rfl, rfl⟩, rfl, ?_, ?_, ⟨rfl, rfl⟩, ?_, ?_, ?_, placeable_of_room _ ?_, room_of ?_, ⟨rfl, rfl⟩, ?_, ?_, ?_,
    ⟨rfl, rfl⟩, ?_⟩ <;> decide +kernel

/-! ### Witnesses: timers -/

/-- A deadline of this tick, and response timers of this tick in WAIT_ACK and in RETRACTING. -/
theorem test_DeadlinesEndRequests :
    (holding (.posted receive (some 1000))).calm ∧ (holding (.posted receive (some 1000))).active = true
      ∧ (holding (.posted receive (some 1000))).roomFor 1
      ∧ (holding (.posted receive (some 1000))).matching.find 0
        = some { id := 0, domain := 2, body := .posted receive (some 1000) }
      ∧ (1000 : Tick) ≤ (holding (.posted receive (some 1000))).host.tick
      ∧ ∀ state ∈ [SendState.waitAck, .retracting],
        let s := sends { sendEntry state .rendezvous 600 with timer := some 1000 }
        s.active = true ∧ s.claims.waiting = [] ∧ s.claims.locks = [] ∧ s.ring.chq = []
          ∧ occupancy s.ring.completionTail s.ring.cqHead + 2 ≤ s.setup.completionSize
          ∧ (s.sendEntry 3).state.live = true ∧ (s.sendEntry 3).timer = some 1000 ∧ (1000 : Tick) ≤ s.host.tick := by
  refine ⟨⟨rfl, rfl⟩, rfl, room_of ?_, ?_⟩ <;> decide +kernel

/-- A gap timer of this tick before a position that is not opened, and contexts that reach the age limit at this
tick. -/
theorem test_TimersSkipAndExpire :
    let gap := online.setPeer 12 { online.peer 12 with gapTimer := some 1000, ahead := 2 }
    gap.calm ∧ gap.active = true ∧ (gap.peer 12).gapTimer = some 1000 ∧ (1000 : Tick) ≤ gap.host.tick
      ∧ (gap.peer 12).opensRun 1 0
      ∧ (populated.setHost { populated.host with tick := 2000 }).calm ∧ (populated.peer 12).gapTimer = some 2000
      ∧ (populated.peer 12).opensRun 1 2 ∧ populated.matching.find 2 = some { id := 2, domain := 2, body := .held late }
      ∧ populated.matching.searchPrl 2 late = some (0, receive)
      ∧ (holding (.held announced)).matching.searchPrl 2 announced = none
      ∧ ∀ body ∈ [filling 1, .pulling gathering 600 256], let s := withContext body
        s.claims.waiting = [] ∧ s.claims.locks = [] ∧ s.active = true ∧ s.ring.chq = []
          ∧ occupancy s.ring.completionTail s.ring.cqHead + 2 ≤ s.setup.completionSize ∧ s.laneA.queue.length < 32
          ∧ s.laneB.queue.length < 32 ∧ (s.context 0).body.gather = some gathering
          ∧ gathering.lastActivity + BitVec.ofNat 64 s.setup.ageLimit ≤ s.host.tick := by
  refine ⟨⟨rfl, rfl⟩, rfl, ?_, ?_, ⟨?_, ?_⟩, ⟨rfl, rfl⟩, ?_, ⟨?_, ?_⟩, ?_⟩ <;> decide +kernel

/-! ### Witnesses: what follows a command, and the invariants -/

/-- A part in ONLINE, one in STOPPING that meets the stopping condition, and one whose request take is in progress. -/
theorem test_SettlingKeepsTheRest : online.claims.waiting = [] ∧ (inState .stopping).claims.waiting = []
    ∧ (inState .stopping).settled.host.partState = .stopped
    ∧ (asking (inState .stopping)).settled.host.partState = .stopping := by decide +kernel

/-- The part whose lane A has this record, with the ready last piece of a SEND of 600 bytes in entry 3. -/
def supplying (state : SendState) (r : LaneRecord) : State :=
  (sends { sendEntry state .eager 600 with
    pullLength := 600, nextOffset := 600, piece := .ready 512 (List.replicate 88 7), timer := some 1050 }).setLaneA r

/-- A lane A that sends nothing. -/
def idleLane : LaneRecord := { upLane with transmitter := none }

/-- An idle lane that has a TRAIN, a CREDIT, a control frame and a data frame to send, and one that has nothing; lane B is
sending, DISABLED, in FAULT, or idle with no entry of its own to supply it. -/
theorem test_SettlingKeepsTheRest_lanes :
    let training : LaneRecord := { idleLane with state := .training, trainSent := false }
    let u (state : SendState) (r : LaneRecord) := supplying state r
    (u .waitAck training).claims.waiting = [] ∧ (u .waitAck training).laneA.transmitter = none
      ∧ training.state = .training ∧ training.trainSent = false ∧ training.ingress = []
      ∧ 0 < ({ idleLane with owed := 3 } : LaneRecord).owed ∧ idleLane.state = .up ∧ idleLane.owed = 0
      ∧ 0 < idleLane.credits ∧ idleLane.queue = [] ∧ (u .waitAck idleLane).laneB.transmitter ≠ none
      ∧ (∀ i, ((u .waitAck idleLane).sendEntry i).state ≠ .eagerSending
          ∧ ((u .waitAck idleLane).sendEntry i).state ≠ .streaming)
      ∧ (∀ state ∈ [SendState.eagerSending, .streaming], (u state idleLane).unheld .sendUnit = true
          ∧ ((u state idleLane).sendEntry 3).state = state ∧ ((u state idleLane).sendEntry 3).pinnedLane = .a
          ∧ ((u state idleLane).sendEntry 3).piece = .ready 512 (List.replicate 88 7)
          ∧ ∀ k, k < (3 : Fin 32) - idleLane.roundRobin →
            ((u state idleLane).sendEntry (idleLane.roundRobin + k)).state = .free)
      ∧ (∀ other ∈ [LaneState.disabled, .fault], ({ idleLane with state := other } : LaneRecord).state ≠ .up)
      ∧ (∀ k, k ≠ 3 → ((u .streaming idleLane).sendEntry k).state = .free) := by
  decide +kernel

/-- Both lanes idle, with a ready piece in entries 3 and 6: from position 0 both come to entry 3 first, and from position 5
lane B comes to entry 6. -/
def bothAsk (position : Fin 32) : State :=
  ((supplying .eagerSending idleLane).setSendEntry 6
    { sendEntry .eagerSending .eager 600 with
      seq := 51, nextOffset := 600, piece := .ready 512 (List.replicate 88 8), timer := some 1050 }).setLaneB
    { idleLane with roundRobin := position }

theorem test_SettlingKeepsTheRest_both : ∀ position ∈ [(0 : Fin 32), 5],
    (bothAsk position).unheld .sendUnit = true ∧ (bothAsk position).claims.waiting = []
      ∧ (∀ i ∈ [(3 : Fin 32), 6], ((bothAsk position).sendEntry i).state = .eagerSending
        ∧ ((bothAsk position).sendEntry i).piece ≠ .noPiece)
      ∧ ∀ k, k ≠ 3 → k ≠ 6 → ((bothAsk position).sendEntry k).state = .free := by decide +kernel

/-- A producer that waits for the full queue of an idle lane, and a giver that waits for a place that has become free. -/
theorem test_SettlingKeepsTheRest_waits :
    let f := answerFrame .ack
    let u := (online.setLaneA { idleLane with queue := f :: List.replicate 31 f }).setClaims
      { Claims.reset with waiting := [[.placeOn .a f]] }
    let v := (online.setRing { online.ring with chq := List.replicate 15 waitingCompletion, take := .owned }).setClaims
      { Claims.reset with waiting := [[.give waitingCompletion, .endTake]] }
    u.claims.waiting = [[.placeOn .a f]] ∧ (u.lane .a).queue.length = 32 ∧ (u.lane .a).transmitter = none
      ∧ (u.lane .a).state = .up ∧ (u.lane .a).owed = 0 ∧ 0 < (u.lane .a).credits
      ∧ v.claims.waiting = [[.give waitingCompletion, .endTake]] ∧ v.ring.chq ≠ [] ∧ v.ring.chq.length < 16 := by
  decide +kernel

/-- The part of Chapter 11 with a tick to come is sound, and its step answers a next state. -/
theorem test_PartStaysSound :
    (online.setPending [.tick]).sound ∧ step (online.setPending [.tick]) = exec .tick online := by
  refine ⟨?_, rfl⟩
  simp only [State.sound]
  refine ⟨?_, ?_, ?_, fun c hc => ?_, ?_, ?_, ?_, fun hp => absurd hp ?_, fun l => ⟨?_, ?_, ?_, ?_⟩, ?_, ?_, ?_, ?_, ?_,
    fun c hc => ?_⟩
  case refine_4 =>
    obtain rfl : parseSetup goodBlock = c := Option.some.inj hc
    exact test_SetupBlockLoads.2.2.1
  case refine_18 => cases hc
  all_goals first | decide +kernel | cases l <;> decide +kernel

/-- So is the Match Store of one with entries of every kind, and of one with an opening that waits for a spill buffer. -/
theorem test_StoreStaysSound :
    restarting.storeSound ∧ awaitingSpill.storeSound ∧ (online.setPending [.tick]).storeSound
      ∧ step (online.setPending [.tick]) = exec .tick online :=
  ⟨storeSound_of (by decide +kernel), storeSound_of (by decide +kernel), storeSound_of (by decide +kernel), rfl⟩

end Sys2Proof.Tests
end

section
/-! PROOFS. Writes of the ring counts (R157, R159): a write is judged, and either moves its count or gives a
RING_INDEX_ERROR event. -/

namespace Sys2Proof.Machine

variable {s : State}

/-! ### What the two outcomes of a judged write change -/

theorem setRing_changesOnly (r : RingUnit) : s.changesOnly (s.setRing r) [.ring] := by
  refine ⟨fun b hb => ?_, setRing_pending s r⟩
  cases b with
  | ring => exact absurd (List.mem_singleton_self _) hb
  | _ => rfl

theorem giveEvent_changesOnly (e : Event) :
    s.changesOnly (s.giveEvent e) [.ring, .counters, .host, .outbox] := by
  refine ⟨fun b hb => ?_, by simp⟩
  cases b <;> simp_all [State.agrees]

/-- The outcome of a count write in an active part: taken, it changes the Ring Unit as asked and nothing else; not
taken, it is reported (R159). `P` is the judgement as a statement says it. -/
theorem judgedWrite_outcome {t : State} {taken : Bool} {r : RingUnit} {e : Event} {P : Prop} [Decidable P]
    (judged : taken = true ↔ P) (ha : s.active = true) (ht : t = if taken then s.setRing r else s.giveEvent e) :
    if P then s.changesOnly t [.ring] ∧ t.ring = r
    else s.changesOnly t [.ring, .counters, .host, .outbox] ∧ s.reports t e := by
  by_cases h : P
  · rw [if_pos (judged.2 h)] at ht
    rw [if_pos h, ht]
    exact ⟨setRing_changesOnly r, setRing_ring s r⟩
  · rw [if_neg (mt judged.1 h)] at ht
    rw [if_neg h, ht]
    exact ⟨giveEvent_changesOnly e, reports_giveEvent e ha⟩

/-! ### Tail writes -/

/-- The judgement of R157 by occupancies. -/
theorem tailTaken_iff (old written head : BitVec 16) (size : Nat) :
    tailTaken old written head size = true
      ↔ occupancy old head ≤ occupancy written head ∧ occupancy written head ≤ size := by
  simp [tailTaken]

theorem exec_rqTailWrite (v : BitVec 32) : exec (.rqTailWrite v) s = .next (s.writeRqTail v) := rfl

theorem exec_srTailWrite (v : BitVec 32) : exec (.srTailWrite v) s = .next (s.writeSrTail v) := rfl

theorem writeRqTail_inactive (v : BitVec 32) (h : s.active = false) : s.writeRqTail v = s := by
  simp [State.writeRqTail, h]

theorem writeSrTail_inactive (v : BitVec 32) (h : s.active = false) : s.writeSrTail v = s := by
  simp [State.writeSrTail, h]

/-- The written count is the low half of the register's value (R156). -/
theorem writeRqTail_active (v : BitVec 32) (h : s.active = true) :
    let w := v.extractLsb' 0 16
    s.writeRqTail v
      = if tailTaken s.ring.rqTail w s.ring.requestHead s.setup.requestSize then s.setRing { s.ring with rqTail := w }
        else s.giveEvent (ringEvent 0 w s.ring.requestHead) := by
  simp [State.writeRqTail, h, BitVec.setWidth_eq_extractLsb']

theorem writeSrTail_active (v : BitVec 32) (h : s.active = true) :
    let w := v.extractLsb' 0 16
    s.writeSrTail v
      = if tailTaken s.ring.srTail w s.ring.spillHead s.setup.spillRingSize then s.setRing { s.ring with srTail := w }
        else s.giveEvent (ringEvent 1 w s.ring.spillHead) := by
  simp [State.writeSrTail, h, BitVec.setWidth_eq_extractLsb']

/-- Settles O13: in an inactive part both writes return at once; in an active one each is a judged write. -/
theorem tailWrites : Obligations.TailWrites := by
  unfold Obligations.TailWrites
  refine ⟨fun s v inactive => ⟨?_, ?_⟩, fun s v active => ⟨⟨_, exec_rqTailWrite v, ?_⟩, ⟨_, exec_srTailWrite v, ?_⟩⟩⟩
  · rw [exec_rqTailWrite, writeRqTail_inactive v inactive]
  · rw [exec_srTailWrite, writeSrTail_inactive v inactive]
  · exact judgedWrite_outcome (tailTaken_iff ..) active (writeRqTail_active v active)
  · exact judgedWrite_outcome (tailTaken_iff ..) active (writeSrTail_active v active)

end Sys2Proof.Machine
end

section
/-! PROOFS. The interrupt registers (R194): each write of them, and each raised cause, gives `setInterrupts` new values;
a reset does not, and only cuts off frames. -/

namespace Sys2Proof.Machine

variable {s : State}

/-! ### Commands and the values they give -/

/-- New values of the interrupt registers change the Host Port, and a message may leave. -/
theorem setInterrupts_changesOnly (c m : BitVec 4) (e : Bool) :
    s.changesOnly (s.setInterrupts c m e) [.host, .outbox] := by
  refine ⟨fun b hb => ?_, by simp⟩
  cases b <;> simp_all [State.agrees]

/-- The written causes are the low four bits of the register's value. -/
theorem exec_intCauseWrite (v : BitVec 32) :
    exec (.intCauseWrite v) s
      = .next (s.setInterrupts (s.host.intCause &&& ~~~(v.extractLsb' 0 4)) s.host.intMask s.host.msiEnable) := by
  rw [← BitVec.setWidth_eq_extractLsb' (by decide)]
  rfl

theorem exec_intMaskWrite (v : BitVec 32) :
    exec (.intMaskWrite v) s = .next (s.setInterrupts s.host.intCause (v.extractLsb' 0 4) s.host.msiEnable) := by
  rw [← BitVec.setWidth_eq_extractLsb' (by decide)]
  rfl

theorem exec_msiEnableChange (e : Bool) :
    exec (.msiEnableChange e) s = .next (s.setInterrupts s.host.intCause s.host.intMask e) := rfl

theorem exec_reset : exec .reset s = .next s.functionReset := rfl

/-! ### What a reset sends -/

theorem cutFrame_outbox (l : Lane) :
    (s.cutFrame l).outbox
      = s.outbox ++ ([l].filter fun k => (s.lane k).transmitter.isSome).map Output.cut := by
  cases h : (s.lane l).transmitter.isSome <;> simp [State.cutFrame, State.emit, h]

/-- A function reset cuts off the frames being sent (R154, R191), lane A's first, and sends nothing else. -/
theorem left_functionReset :
    s.left s.functionReset = ([Lane.a, .b].filter fun l => (s.lane l).transmitter.isSome).map Output.cut := by
  have cutA (l : Lane) : (s.cutFrame .a).lane l = s.lane l := by cases l <;> simp [State.lane]
  have sent : s.functionReset.outbox = ((s.cutFrame .a).cutFrame .b).outbox := rfl
  rw [State.left, sent, cutFrame_outbox, cutFrame_outbox, List.append_assoc, List.drop_left, ← List.map_append]
  simp only [cutA, ← List.filter_append, List.singleton_append]

/-- No message signalled interrupt leaves a part that is reset. -/
theorem interrupt_not_mem_left_functionReset : .interrupt ∉ s.left s.functionReset := by
  simp [left_functionReset]

/-- Settles O9: the three commands and a raised cause are all `setInterrupts`, which keeps the rule of R194. -/
theorem interruptRegisters : Obligations.InterruptRegisters := by
  unfold Obligations.InterruptRegisters
  intro s v e cause
  refine ⟨_, _, _, _, exec_intCauseWrite v, exec_intMaskWrite v, exec_msiEnableChange e, exec_reset, ?_,
    setInterrupts_host .., setInterrupts_host .., setInterrupts_host .., raise_host cause, rfl,
    interrupt_not_mem_left_functionReset⟩
  have rule (c m : BitVec 4) (e : Bool) :
      s.changesOnly (s.setInterrupts c m e) [.host, .outbox] ∧ s.interrupts (s.setInterrupts c m e) :=
    ⟨setInterrupts_changesOnly c m e, interrupts_setInterrupts c m e⟩
  simp only [List.forall_mem_cons, List.not_mem_nil, false_imp_iff, implies_true, and_true]
  exact ⟨rule .., rule .., rule .., rule ..⟩

end Sys2Proof.Machine
end
